-- ==== Sys2Proof/Word.lean ====
section
/-! DEFINITION. Word types: the 4-bit data word, the program memory byte, and the few conversions between them
that every file uses (spec 00_scope.md R9, R11). -/

namespace Sys2Proof

/-- A data memory word, 4 bits (R80). -/
abbrev Nibble := BitVec 4

/-- A program memory byte (R81). -/
abbrev Byte := BitVec 8

/-- A 12-bit data memory address (R80). -/
abbrev DAddr := BitVec 12

end Sys2Proof
end

