-- ==== Sys2Proof/Machine/Codes.lean ====
section
/-! DEFINITION. Which codes hold no instruction (30_encoding.md R124 to R127, R144, R148), and which operands give a code a
spelling of its own (R146, R147). The decoder and WellFormed.lean both use these sets. -/

namespace Sys2Proof

/-- First bytes with no instruction at all (R148). -/
def unassignedFirst (b : Byte) : Bool :=
  b == 0x00 || b == 0x81 || b == 0x83 || b == 0x88 || b == 0x91 || b == 0x9E || b == 0xA1 || b == 0xAD ||
  b == 0xAF || b == 0xB1 || b == 0xD3 || b == 0xD8 || b == 0xFF

/-- Second bytes after 99H with no instruction (R124, R148). -/
def unassigned99 (b : Byte) : Bool :=
  b == 0x03 || (0x24 ≤ b && b ≤ 0x2F) || b == 0x70 || 0x80 ≤ b

/-- Second bytes after 9AH with no instruction: `IIII 1000` (R125, R148). -/
def unassigned9A (b : Byte) : Bool := b.extractLsb' 0 4 == 8#4

/-- Second bytes after AAH with no instruction (R126, R148). -/
def unassignedAA (b : Byte) : Bool :=
  b ≤ 0x0F || (0x12 ≤ b && b ≤ 0x17) || (0x1A ≤ b && b ≤ 0x3F) || b == 0x50 || (0x60 ≤ b && b ≤ 0x67) ||
  (0x70 ≤ b && b ≤ 0x8F) || b == 0x90 || b == 0xA0 || b == 0xB0 || b == 0xC0 || b == 0xD0 || b == 0xE0 || b == 0xF0

/-- First bytes of the bit-manipulation forms (R144). -/
def bitFirst (b : Byte) : Bool :=
  b == 0x9B || b == 0x9C || b == 0x9D || b == 0x9F || b == 0xAC || b == 0xAE || b == 0xBC || b == 0xBD ||
  b == 0xBE || b == 0xBF

/-- The unassigned codes with a second byte: after a prefix, after a bit-manipulation first byte (50H-7FH), after
ABH, BAH, BBH (bit 7 set) (R148). -/
def unassignedSecond (b1 b2 : Byte) : Bool :=
  (b1 == 0x99 && unassigned99 b2) || (b1 == 0x9A && unassigned9A b2) || (b1 == 0xAA && unassignedAA b2) ||
  (bitFirst b1 && 0x50 ≤ b2 && b2 ≤ 0x7F) || ((b1 == 0xAB || b1 == 0xBA || b1 == 0xBB) && 0x80 ≤ b2)

/-- The port numbers of `IN A,PORTn` (R386). -/
def inPort (n : Nibble) : Bool := n ≤ 6 || n == 11

/-- The port numbers of `OUT PORTn,A` (R388). -/
def outPort (n : Nibble) : Bool := 2 ≤ n && n ≤ 6

/-- The `mem` operands that are spelled `IN A,PORTn` (R147): F0H + n. -/
def inPortMem (m : Byte) : Bool := m.extractLsb' 4 4 == 0xF#4 && inPort (m.extractLsb' 0 4)

/-- The `mem` operands that are spelled `OUT PORTn,A` (R147): F0H + n. -/
def outPortMem (m : Byte) : Bool := m.extractLsb' 4 4 == 0xF#4 && outPort (m.extractLsb' 0 4)

/-- The operand of `SET1 fmem.bit` / `CLR1 fmem.bit` names an interrupt enable flag: the code is spelled `EI IExxx` /
`DI IExxx` (R146). -/
def ieOperand (hi : Bool) (f : Nibble) (b : BitVec 2) : Bool :=
  !hi && ((b == 1 && (f == 8 || f == 10 || f == 12 || f == 13 || f == 14 || f == 15)) ||
          (b == 3 && (f == 8 || f == 12 || f == 14)))

/-- The operand is FB2H bit 3, spelled `EI` / `DI` (R147). -/
def imeOperand (hi : Bool) (f : Nibble) (b : BitVec 2) : Bool := !hi && f == 2 && b == 3

/-- The operand is FB3H bit 2 or 3: `SET1` of it is spelled `HALT` / `STOP` (R147). -/
def standbyOperand (hi : Bool) (f : Nibble) (b : BitVec 2) : Bool := !hi && f == 3 && (b == 2 || b == 3)

end Sys2Proof
end

