-- ==== Sys2Proof/Syntax.lean ====
section
/-! DEFINITION. The instruction set as syntax: one constructor for every mnemonic of spec/opcode_table.json
(30_encoding.md R123 to R127, R144 to R147; the assembler's choices R330, R331 and the GETI table entries R332, R348;
the unassigned codes R148). Meaning is given in Machine/ only. -/

namespace Sys2Proof

/-- The eight general registers of a bank (R21), in the order of their code R2R1R0 (R131). -/
inductive Reg where
  | a | x | l | h | e | d | c | b
deriving DecidableEq, Repr

/-- The `rp` class (R133): pairs of the current register bank. -/
inductive Rp where
  | xa | hl | de | bc
deriving DecidableEq, Repr

/-- The `rp'` class (R132): pairs of the current bank and, primed, of its partner bank (R23). -/
inductive RpP where
  | xa | xa' | hl | hl' | de | de' | bc | bc'
deriving DecidableEq, Repr

/-- The `rpa1` class (R134): `@DE` and `@DL`. -/
inductive Rpa1 where
  | de | dl
deriving DecidableEq, Repr

/-- The instructions. Operands: `n` immediate, `r` register, `p` register pair, `m` direct address, `b` bit number,
`hi` and `f` the `fmem` address FB0H + f or FF0H + f (R144), `g` bits 5-2 of `pmem`, `d` the low 4 bits of the `mem` of
`@H+mem.bit`, `t` a program address or the table index field. -/
inductive Instr where
  /-- `MOV A,#n4` (R161): 0111IIII. -/
  | movAImm (n : BitVec 4)
  /-- `MOV reg1,#n4` (R162): 10011010 IIII1RRR. -/
  | movReg1Imm (r : Reg) (n : BitVec 4)
  /-- `MOV XA,#n8` (R163): 10001001 IIIIIIII. -/
  | movXaImm (n : BitVec 8)
  /-- `MOV HL,#n8` (R164): 10001011 IIIIIIII. -/
  | movHlImm (n : BitVec 8)
  /-- `MOV rp2,#n8` (R165): 100011P1 IIIIIIII. -/
  | movRp2Imm (p : Rp) (n : BitVec 8)
  /-- `MOV A,@HL` (R166): 11100001. -/
  | movAHl
  /-- `MOV A,@HL+` (R167): 11100010. -/
  | movAHlInc
  /-- `MOV A,@HL-` (R168): 11100011. -/
  | movAHlDec
  /-- `MOV A,@rpa1` (R169): 1110010Q. -/
  | movARpa1 (q : Rpa1)
  /-- `MOV XA,@HL` (R170): 10101010 00011000. -/
  | movXaHl
  /-- `MOV @HL,A` (R171): 11101000. -/
  | movHlA
  /-- `MOV @HL,XA` (R172): 10101010 00010000. -/
  | movHlXa
  /-- `MOV A,mem` (R173): 10100011 DDDDDDDD. -/
  | movAMem (m : BitVec 8)
  /-- `MOV XA,mem` (R174): 10100010 DDDDDDDx. -/
  | movXaMem (m : BitVec 8)
  /-- `MOV mem,A` (R175): 10010011 DDDDDDDD. -/
  | movMemA (m : BitVec 8)
  /-- `MOV mem,XA` (R176): 10010010 DDDDDDDx. -/
  | movMemXa (m : BitVec 8)
  /-- `MOV A,reg` (R177): 10011001 01111RRR. -/
  | movAReg (r : Reg)
  /-- `MOV XA,rp'` (R178): 10101010 01011PPP. -/
  | movXaRp (p : RpP)
  /-- `MOV reg1,A` (R179): 10011001 01110RRR. -/
  | movReg1A (r : Reg)
  /-- `MOV rp'1,XA` (R180): 10101010 01010PPP. -/
  | movRpXa (p : RpP)
  /-- `XCH A,@HL` (R181): 11101001. -/
  | xchAHl
  /-- `XCH A,@HL+` (R182): 11101010. -/
  | xchAHlInc
  /-- `XCH A,@HL-` (R183): 11101011. -/
  | xchAHlDec
  /-- `XCH A,@rpa1` (R184): 1110110Q. -/
  | xchARpa1 (q : Rpa1)
  /-- `XCH XA,@HL` (R185): 10101010 00010001. -/
  | xchXaHl
  /-- `XCH A,mem` (R186): 10110011 DDDDDDDD. -/
  | xchAMem (m : BitVec 8)
  /-- `XCH XA,mem` (R187): 10110010 DDDDDDDx. -/
  | xchXaMem (m : BitVec 8)
  /-- `XCH A,reg1` (R188): 11011RRR. -/
  | xchAReg1 (r : Reg)
  /-- `XCH XA,rp'` (R189): 10101010 01000PPP. -/
  | xchXaRp (p : RpP)
  /-- `MOVT XA,@PCDE` (R190): 11010100. -/
  | movtPcde
  /-- `MOVT XA,@PCXA` (R191): 11010000. -/
  | movtPcxa
  /-- `MOVT XA,@BCDE` (R192): 11010101. -/
  | movtBcde
  /-- `MOVT XA,@BCXA` (R193): 11010001. -/
  | movtBcxa
  /-- `MOV1 CY,fmem.bit` (R194): 10111101 10BBFFFF. -/
  | mov1CyFmem (hi : Bool) (f : BitVec 4) (b : BitVec 2)
  /-- `MOV1 CY,pmem.@L` (R194): 10111101 0100GGGG. -/
  | mov1CyPmem (g : BitVec 4)
  /-- `MOV1 CY,@H+mem.bit` (R194): 10111101 00BBDDDD. -/
  | mov1CyHmem (d : BitVec 4) (b : BitVec 2)
  /-- `MOV1 fmem.bit,CY` (R195): 10011011 10BBFFFF. -/
  | mov1ToFmem (hi : Bool) (f : BitVec 4) (b : BitVec 2)
  /-- `MOV1 pmem.@L,CY` (R195): 10011011 0100GGGG. -/
  | mov1ToPmem (g : BitVec 4)
  /-- `MOV1 @H+mem.bit,CY` (R195): 10011011 00BBDDDD. -/
  | mov1ToHmem (d : BitVec 4) (b : BitVec 2)
  /-- `ADDS A,#n4` (R210): 0110IIII. -/
  | addsAImm (n : BitVec 4)
  /-- `ADDS XA,#n8` (R211): 10111001 IIIIIIII. -/
  | addsXaImm (n : BitVec 8)
  /-- `ADDS A,@HL` (R212): 11010010. -/
  | addsAHl
  /-- `ADDS XA,rp'` (R213): 10101010 11001PPP. -/
  | addsXaRp (p : RpP)
  /-- `ADDS rp'1,XA` (R214): 10101010 11000PPP. -/
  | addsRpXa (p : RpP)
  /-- `ADDC A,@HL` (R215): 10101001. -/
  | addcAHl
  /-- `ADDC XA,rp'` (R216): 10101010 11011PPP. -/
  | addcXaRp (p : RpP)
  /-- `ADDC rp'1,XA` (R217): 10101010 11010PPP. -/
  | addcRpXa (p : RpP)
  /-- `SUBS A,@HL` (R218): 10101000. -/
  | subsAHl
  /-- `SUBS XA,rp'` (R219): 10101010 11101PPP. -/
  | subsXaRp (p : RpP)
  /-- `SUBS rp'1,XA` (R220): 10101010 11100PPP. -/
  | subsRpXa (p : RpP)
  /-- `SUBC A,@HL` (R221): 10111000. -/
  | subcAHl
  /-- `SUBC XA,rp'` (R222): 10101010 11111PPP. -/
  | subcXaRp (p : RpP)
  /-- `SUBC rp'1,XA` (R223): 10101010 11110PPP. -/
  | subcRpXa (p : RpP)
  /-- `AND A,#n4` (R224): 10011001 0011IIII. -/
  | andAImm (n : BitVec 4)
  /-- `AND A,@HL` (R225): 10010000. -/
  | andAHl
  /-- `AND XA,rp'` (R226): 10101010 10011PPP. -/
  | andXaRp (p : RpP)
  /-- `AND rp'1,XA` (R227): 10101010 10010PPP. -/
  | andRpXa (p : RpP)
  /-- `OR A,#n4` (R228): 10011001 0100IIII. -/
  | orAImm (n : BitVec 4)
  /-- `OR A,@HL` (R229): 10100000. -/
  | orAHl
  /-- `OR XA,rp'` (R230): 10101010 10101PPP. -/
  | orXaRp (p : RpP)
  /-- `OR rp'1,XA` (R231): 10101010 10100PPP. -/
  | orRpXa (p : RpP)
  /-- `XOR A,#n4` (R232): 10011001 0101IIII. -/
  | xorAImm (n : BitVec 4)
  /-- `XOR A,@HL` (R233): 10110000. -/
  | xorAHl
  /-- `XOR XA,rp'` (R234): 10101010 10111PPP. -/
  | xorXaRp (p : RpP)
  /-- `XOR rp'1,XA` (R235): 10101010 10110PPP. -/
  | xorRpXa (p : RpP)
  /-- `RORC A` (R236): 10011000. -/
  | rorcA
  /-- `NOT A` (R237): 10011001 01011111. -/
  | notA
  /-- `INCS reg` (R238): 11000RRR. -/
  | incsReg (r : Reg)
  /-- `INCS rp1` (R239): 10001PP0. -/
  | incsRp1 (p : Rp)
  /-- `INCS @HL` (R240): 10011001 00000010. -/
  | incsHl
  /-- `INCS mem` (R241): 10000010 DDDDDDDD. -/
  | incsMem (m : BitVec 8)
  /-- `DECS reg` (R242): 11001RRR. -/
  | decsReg (r : Reg)
  /-- `DECS rp'` (R243): 10101010 01101PPP. -/
  | decsRp (p : RpP)
  /-- `SKE reg,#n4` (R244): 10011010 IIII0RRR. -/
  | skeRegImm (r : Reg) (n : BitVec 4)
  /-- `SKE @HL,#n4` (R245): 10011001 0110IIII. -/
  | skeHlImm (n : BitVec 4)
  /-- `SKE A,@HL` (R246): 10000000. -/
  | skeAHl
  /-- `SKE XA,@HL` (R247): 10101010 00011001. -/
  | skeXaHl
  /-- `SKE A,reg` (R248): 10011001 00001RRR. -/
  | skeAReg (r : Reg)
  /-- `SKE XA,rp'` (R249): 10101010 01001PPP. -/
  | skeXaRp (p : RpP)
  /-- `SET1 CY` (R280): 11100111. -/
  | set1Cy
  /-- `CLR1 CY` (R281): 11100110. -/
  | clr1Cy
  /-- `SKT CY` (R282): 11010111. -/
  | sktCy
  /-- `NOT1 CY` (R283): 11010110. -/
  | not1Cy
  /-- `SET1 mem.bit` (R284): 10BB0101 DDDDDDDD. -/
  | set1Mem (m : BitVec 8) (b : BitVec 2)
  /-- `SET1 fmem.bit` (R285): 10011101 10BBFFFF. -/
  | set1Fmem (hi : Bool) (f : BitVec 4) (b : BitVec 2)
  /-- `SET1 pmem.@L` (R285): 10011101 0100GGGG. -/
  | set1Pmem (g : BitVec 4)
  /-- `SET1 @H+mem.bit` (R285): 10011101 00BBDDDD. -/
  | set1Hmem (d : BitVec 4) (b : BitVec 2)
  /-- `CLR1 mem.bit` (R286): 10BB0100 DDDDDDDD. -/
  | clr1Mem (m : BitVec 8) (b : BitVec 2)
  /-- `CLR1 fmem.bit` (R287): 10011100 10BBFFFF. -/
  | clr1Fmem (hi : Bool) (f : BitVec 4) (b : BitVec 2)
  /-- `CLR1 pmem.@L` (R287): 10011100 0100GGGG. -/
  | clr1Pmem (g : BitVec 4)
  /-- `CLR1 @H+mem.bit` (R287): 10011100 00BBDDDD. -/
  | clr1Hmem (d : BitVec 4) (b : BitVec 2)
  /-- `SKT mem.bit` (R288): 10BB0111 DDDDDDDD. -/
  | sktMem (m : BitVec 8) (b : BitVec 2)
  /-- `SKT fmem.bit` (R289): 10111111 10BBFFFF. -/
  | sktFmem (hi : Bool) (f : BitVec 4) (b : BitVec 2)
  /-- `SKT pmem.@L` (R289): 10111111 0100GGGG. -/
  | sktPmem (g : BitVec 4)
  /-- `SKT @H+mem.bit` (R289): 10111111 00BBDDDD. -/
  | sktHmem (d : BitVec 4) (b : BitVec 2)
  /-- `SKF mem.bit` (R290): 10BB0110 DDDDDDDD. -/
  | skfMem (m : BitVec 8) (b : BitVec 2)
  /-- `SKF fmem.bit` (R291): 10111110 10BBFFFF. -/
  | skfFmem (hi : Bool) (f : BitVec 4) (b : BitVec 2)
  /-- `SKF pmem.@L` (R291): 10111110 0100GGGG. -/
  | skfPmem (g : BitVec 4)
  /-- `SKF @H+mem.bit` (R291): 10111110 00BBDDDD. -/
  | skfHmem (d : BitVec 4) (b : BitVec 2)
  /-- `SKTCLR fmem.bit` (R292): 10011111 10BBFFFF. -/
  | sktclrFmem (hi : Bool) (f : BitVec 4) (b : BitVec 2)
  /-- `SKTCLR pmem.@L` (R292): 10011111 0100GGGG. -/
  | sktclrPmem (g : BitVec 4)
  /-- `SKTCLR @H+mem.bit` (R292): 10011111 00BBDDDD. -/
  | sktclrHmem (d : BitVec 4) (b : BitVec 2)
  /-- `AND1 CY,fmem.bit` (R293): 10101100 10BBFFFF. -/
  | and1Fmem (hi : Bool) (f : BitVec 4) (b : BitVec 2)
  /-- `AND1 CY,pmem.@L` (R293): 10101100 0100GGGG. -/
  | and1Pmem (g : BitVec 4)
  /-- `AND1 CY,@H+mem.bit` (R293): 10101100 00BBDDDD. -/
  | and1Hmem (d : BitVec 4) (b : BitVec 2)
  /-- `OR1 CY,fmem.bit` (R294): 10101110 10BBFFFF. -/
  | or1Fmem (hi : Bool) (f : BitVec 4) (b : BitVec 2)
  /-- `OR1 CY,pmem.@L` (R294): 10101110 0100GGGG. -/
  | or1Pmem (g : BitVec 4)
  /-- `OR1 CY,@H+mem.bit` (R294): 10101110 00BBDDDD. -/
  | or1Hmem (d : BitVec 4) (b : BitVec 2)
  /-- `XOR1 CY,fmem.bit` (R295): 10111100 10BBFFFF. -/
  | xor1Fmem (hi : Bool) (f : BitVec 4) (b : BitVec 2)
  /-- `XOR1 CY,pmem.@L` (R295): 10111100 0100GGGG. -/
  | xor1Pmem (g : BitVec 4)
  /-- `XOR1 CY,@H+mem.bit` (R295): 10111100 00BBDDDD. -/
  | xor1Hmem (d : BitVec 4) (b : BitVec 2)
  /-- `BR !addr` (R321): 10101011 00aaaaaa aaaaaaaa. -/
  | br (t : BitVec 14)
  /-- `BRA !addr1` (R322): 10111010 0aaaaaaa aaaaaaaa. -/
  | bra (t : BitVec 15)
  /-- `BR $addr (forward)` (R323): 0000AAAA. -/
  | brFwd (k : BitVec 4)
  /-- `BR $addr (backward)` (R323): 1111SSSS. -/
  | brBwd (k : BitVec 4)
  /-- `BRCB !caddr` (R324): 0101aaaa aaaaaaaa. -/
  | brcb (t : BitVec 12)
  /-- `BR PCDE` (R325): 10011001 00000100. -/
  | brPcde
  /-- `BR PCXA` (R326): 10011001 00000000. -/
  | brPcxa
  /-- `BR BCDE` (R327): 10011001 00000101. -/
  | brBcde
  /-- `BR BCXA` (R328): 10011001 00000001. -/
  | brBcxa
  /-- `BR addr` (R330): no code of its own. -/
  | brAuto (t : BitVec 14)
  /-- `BR addr1` (R331): no code of its own. -/
  | brAuto1 (t : BitVec 14)
  /-- `TBR addr` (R332): no code of its own. -/
  | tbr (t : BitVec 14)
  /-- `CALL !addr` (R352): 10101011 01aaaaaa aaaaaaaa. -/
  | call (t : BitVec 14)
  /-- `CALLA !addr1` (R353): 10111011 0aaaaaaa aaaaaaaa. -/
  | calla (t : BitVec 15)
  /-- `CALLF !faddr` (R354): 01000aaa aaaaaaaa. -/
  | callf (t : BitVec 11)
  /-- `TCALL addr` (R348): no code of its own. -/
  | tcall (t : BitVec 14)
  /-- `RET` (R355): 11101110. -/
  | ret
  /-- `RETS` (R356): 11100000. -/
  | rets
  /-- `RETI` (R357): 11101111. -/
  | reti
  /-- `PUSH rp` (R358): 01001PP1. -/
  | pushRp (p : Rp)
  /-- `POP rp` (R359): 01001PP0. -/
  | popRp (p : Rp)
  /-- `PUSH BS` (R360): 10011001 00000111. -/
  | pushBs
  /-- `POP BS` (R361): 10011001 00000110. -/
  | popBs
  /-- `EI` (R380): 10011101 10110010. -/
  | ei
  /-- `DI` (R382): 10011100 10110010. -/
  | di
  /-- `EI IEBT` (R381): 10011101 10011000. -/
  | eiIeBt
  /-- `EI IEW` (R381): 10011101 10011010. -/
  | eiIeW
  /-- `EI IET0` (R381): 10011101 10011100. -/
  | eiIeT0
  /-- `EI IECSI` (R381): 10011101 10011101. -/
  | eiIeCsi
  /-- `EI IE0` (R381): 10011101 10011110. -/
  | eiIe0
  /-- `EI IE2` (R381): 10011101 10011111. -/
  | eiIe2
  /-- `EI IE4` (R381): 10011101 10111000. -/
  | eiIe4
  /-- `EI IET1` (R381): 10011101 10111100. -/
  | eiIeT1
  /-- `EI IE1` (R381): 10011101 10111110. -/
  | eiIe1
  /-- `DI IEBT` (R383): 10011100 10011000. -/
  | diIeBt
  /-- `DI IEW` (R383): 10011100 10011010. -/
  | diIeW
  /-- `DI IET0` (R383): 10011100 10011100. -/
  | diIeT0
  /-- `DI IECSI` (R383): 10011100 10011101. -/
  | diIeCsi
  /-- `DI IE0` (R383): 10011100 10011110. -/
  | diIe0
  /-- `DI IE2` (R383): 10011100 10011111. -/
  | diIe2
  /-- `DI IE4` (R383): 10011100 10111000. -/
  | diIe4
  /-- `DI IET1` (R383): 10011100 10111100. -/
  | diIeT1
  /-- `DI IE1` (R383): 10011100 10111110. -/
  | diIe1
  /-- `IN A,PORTn` (R386): 10100011 1111NNNN. -/
  | inAPort (n : BitVec 4)
  /-- `IN XA,PORTn` (R387): 10100010 11110100. -/
  | inXaPort
  /-- `OUT PORTn,A` (R388): 10010011 1111NNNN. -/
  | outPortA (n : BitVec 4)
  /-- `OUT PORTn,XA` (R389): 10010010 11110100. -/
  | outPortXa
  /-- `HALT` (R390): 10011101 10100011. -/
  | halt
  /-- `STOP` (R391): 10011101 10110011. -/
  | stop
  /-- `NOP` (R394): 01100000. -/
  | nop
  /-- `SEL RBn` (R395): 10011001 001000NN. -/
  | selRb (n : BitVec 2)
  /-- `SEL MBn` (R396): 10011001 0001NNNN. -/
  | selMb (n : BitVec 4)
  /-- `GETI taddr (taddr 20H-3EH)` (R400): 0001TTTT. -/
  | getiLow (t : BitVec 4)
  /-- `GETI taddr (taddr 40H-7EH)` (R400): 001TTTTT. -/
  | getiHigh (t : BitVec 5)
  /-- An unassigned code (R148): its first byte, and its second byte where the first one selects by it. -/
  | unassigned (b1 : BitVec 8) (b2 : Option (BitVec 8))
deriving DecidableEq, Repr

end Sys2Proof
end

