-- ==== Sys2Proof/WellFormed.lean ====
section
/-! DEFINITION. Which terms of `Instr` are instructions the encoding can hold (operand classes R14, R131 to R145).
An operand that the code gives a spelling of its own (R147: `NOT A`, `EI`, `HALT`, `IN`, ...) belongs to that
spelling's constructor, so that every code has exactly one term. -/

namespace Sys2Proof

/-- Operand class rp2: DE, BC (R133). -/
def Rp.isRp2 (p : Rp) : Bool := p == .de || p == .bc

/-- Operands at values the encoding of the constructor admits. -/
def Instr.wf : Instr → Bool
  | .movReg1Imm r _ => r != .a
  | .movRp2Imm p _ => p.isRp2
  | .movAMem m => !inPortMem m
  | .movXaMem m => !m.getLsbD 0 && m != 0xF4
  | .movMemA m => !outPortMem m
  | .movMemXa m => !m.getLsbD 0 && m != 0xF4
  | .movReg1A r => r != .a
  | .movRpXa p => p != .xa
  | .xchXaMem m => !m.getLsbD 0
  | .xchAReg1 r => r != .a
  | .addsAImm n => n != 0
  | .addsRpXa p | .addcRpXa p | .subsRpXa p | .subcRpXa p | .andRpXa p | .orRpXa p | .xorRpXa p => p != .xa
  | .xorAImm n => n != 0xF
  | .incsRp1 p => p != .xa
  | .set1Fmem hi f b => !ieOperand hi f b && !imeOperand hi f b && !standbyOperand hi f b
  | .clr1Fmem hi f b => !ieOperand hi f b && !imeOperand hi f b
  | .brFwd k => k != 0
  | .brBwd k => k != 0xF
  | .inAPort n => inPort n
  | .outPortA n => outPort n
  | .unassigned b1 none => unassignedFirst b1
  | .unassigned b1 (some b2) => unassignedSecond b1 b2
  | _ => true

/-- The constructors with no code of their own in program memory: `BR addr`, `BR addr1` (the assembler's choice,
R330, R331) and the GETI table entries `TBR`, `TCALL` (R332, R348). -/
def Instr.isPseudo : Instr → Bool
  | .brAuto _ | .brAuto1 _ | .tbr _ | .tcall _ => true
  | _ => false

end Sys2Proof
end

