-- ==== Sys2Proof/Decode.lean ====
section
/-! DEFINITION. The decoder (30_encoding.md R120 to R149), total on any bytes, and the encoder written from the same
tables. The assembler's other spellings (R147) are what the decoder answers for their codes. -/

namespace Sys2Proof

/-- Why no instruction could be read from a list of bytes. -/
inductive DecodeError where
  | noBytes
  | truncated
deriving DecidableEq, Repr

/-- Field R2R1R0 (R131). -/
def Reg.ofCode (c : BitVec 3) : Reg :=
  match c.toNat with
  | 0 => .a | 1 => .x | 2 => .l | 3 => .h | 4 => .e | 5 => .d | 6 => .c | _ => .b

/-- Field R2R1R0 of a register (R131). -/
def Reg.code : Reg → BitVec 3
  | .a => 0 | .x => 1 | .l => 2 | .h => 3 | .e => 4 | .d => 5 | .c => 6 | .b => 7

/-- Field P2P1 (R133). -/
def Rp.ofCode (c : BitVec 2) : Rp :=
  match c.toNat with
  | 0 => .xa | 1 => .hl | 2 => .de | _ => .bc

/-- Field P2P1 of a pair (R133). -/
def Rp.code : Rp → BitVec 2
  | .xa => 0 | .hl => 1 | .de => 2 | .bc => 3

/-- Field P2P1P0 (R132). -/
def RpP.ofCode (c : BitVec 3) : RpP :=
  match c.toNat with
  | 0 => .xa | 1 => .xa' | 2 => .hl | 3 => .hl' | 4 => .de | 5 => .de' | 6 => .bc | _ => .bc'

/-- Field P2P1P0 of a pair (R132). -/
def RpP.code : RpP → BitVec 3
  | .xa => 0 | .xa' => 1 | .hl => 2 | .hl' => 3 | .de => 4 | .de' => 5 | .bc => 6 | .bc' => 7

/-- Length by the first byte alone; none for an unassigned first byte (R122). -/
def lengthOf (b1 : Byte) : Option Nat :=
  if unassignedFirst b1 then none
  else if b1 == 0xAB || b1 == 0xBA || b1 == 0xBB then some 3
  else
    let hi := (b1.extractLsb' 4 4).toNat
    let lo := (b1.extractLsb' 0 4).toNat
    if hi < 4 || hi == 6 || hi == 7 || 12 ≤ hi then some 1
    else if hi == 4 then (if lo < 8 then some 2 else some 1)
    else if hi == 5 then some 2
    else if b1 == 0x80 || b1 == 0x8A || b1 == 0x8C || b1 == 0x8E || b1 == 0x90 || b1 == 0x98 || b1 == 0xA0 ||
            b1 == 0xA8 || b1 == 0xA9 || b1 == 0xB0 || b1 == 0xB8 then some 1
    else some 2

/-- The one-byte codes, unassigned first bytes included (R123). -/
def decode1 (b : Byte) : Option Instr :=
  let lo : Nibble := b.extractLsb' 0 4
  let r := Reg.ofCode (b.extractLsb' 0 3)
  let p := Rp.ofCode (b.extractLsb' 1 2)
  if unassignedFirst b then some (.unassigned b none) else
  match (b.extractLsb' 4 4).toNat with
  | 0 => some (.brFwd lo)
  | 1 => some (.getiLow lo)
  | 2 | 3 => some (.getiHigh (b.extractLsb' 0 5))
  | 4 => if b.getLsbD 3 then (if b.getLsbD 0 then some (.pushRp p) else some (.popRp p)) else none
  | 5 => none
  | 6 => if lo == 0 then some .nop else some (.addsAImm lo)
  | 7 => some (.movAImm lo)
  | 8 => match lo.toNat with
    | 0 => some .skeAHl
    | 10 | 12 | 14 => some (.incsRp1 p)
    | _ => none
  | 9 => match lo.toNat with
    | 0 => some .andAHl
    | 8 => some .rorcA
    | _ => none
  | 10 => match lo.toNat with
    | 0 => some .orAHl
    | 8 => some .subsAHl
    | 9 => some .addcAHl
    | _ => none
  | 11 => match lo.toNat with
    | 0 => some .xorAHl
    | 8 => some .subcAHl
    | _ => none
  | 12 => if b.getLsbD 3 then some (.decsReg r) else some (.incsReg r)
  | 13 => match lo.toNat with
    | 0 => some .movtPcxa
    | 1 => some .movtBcxa
    | 2 => some .addsAHl
    | 4 => some .movtPcde
    | 5 => some .movtBcde
    | 6 => some .not1Cy
    | 7 => some .sktCy
    | _ => some (.xchAReg1 r)
  | 14 => match lo.toNat with
    | 0 => some .rets
    | 1 => some .movAHl
    | 2 => some .movAHlInc
    | 3 => some .movAHlDec
    | 4 => some (.movARpa1 .de)
    | 5 => some (.movARpa1 .dl)
    | 6 => some .clr1Cy
    | 7 => some .set1Cy
    | 8 => some .movHlA
    | 9 => some .xchAHl
    | 10 => some .xchAHlInc
    | 11 => some .xchAHlDec
    | 12 => some (.xchARpa1 .de)
    | 13 => some (.xchARpa1 .dl)
    | 14 => some .ret
    | _ => some .reti
  | _ => some (.brBwd lo)

/-- Second byte after 99H (R124). -/
def decode99 (b : Byte) : Instr :=
  let lo : Nibble := b.extractLsb' 0 4
  let r := Reg.ofCode (b.extractLsb' 0 3)
  if unassigned99 b then .unassigned 0x99 (some b) else
  match (b.extractLsb' 4 4).toNat with
  | 0 => match lo.toNat with
    | 0 => .brPcxa
    | 1 => .brBcxa
    | 2 => .incsHl
    | 4 => .brPcde
    | 5 => .brBcde
    | 6 => .popBs
    | 7 => .pushBs
    | _ => .skeAReg r
  | 1 => .selMb lo
  | 2 => .selRb (b.extractLsb' 0 2)
  | 3 => .andAImm lo
  | 4 => .orAImm lo
  | 5 => if lo == 0xF then .notA else .xorAImm lo
  | 6 => .skeHlImm lo
  | _ => if b.getLsbD 3 then .movAReg r else .movReg1A r

/-- Second byte after 9AH (R125). -/
def decode9A (b : Byte) : Instr :=
  let n : Nibble := b.extractLsb' 4 4
  let r := Reg.ofCode (b.extractLsb' 0 3)
  if unassigned9A b then .unassigned 0x9A (some b)
  else if b.getLsbD 3 then .movReg1Imm r n else .skeRegImm r n

/-- Second byte after AAH (R126). -/
def decodeAA (b : Byte) : Instr :=
  let p := RpP.ofCode (b.extractLsb' 0 3)
  if unassignedAA b then .unassigned 0xAA (some b) else
  match (b.extractLsb' 3 5).toNat with
  | 2 => if b.getLsbD 0 then .xchXaHl else .movHlXa
  | 3 => if b.getLsbD 0 then .skeXaHl else .movXaHl
  | 8 => .xchXaRp p
  | 9 => .skeXaRp p
  | 10 => .movRpXa p
  | 11 => .movXaRp p
  | 13 => .decsRp p
  | 18 => .andRpXa p
  | 19 => .andXaRp p
  | 20 => .orRpXa p
  | 21 => .orXaRp p
  | 22 => .xorRpXa p
  | 23 => .xorXaRp p
  | 24 => .addsRpXa p
  | 25 => .addsXaRp p
  | 26 => .addcRpXa p
  | 27 => .addcXaRp p
  | 28 => .subsRpXa p
  | 29 => .subsXaRp p
  | 30 => .subcRpXa p
  | _ => .subcXaRp p

/-- `SET1 fmem.bit`, or the spelling its operand has: EI, EI IExxx, HALT, STOP (R146, R147). -/
def decodeSet1 (hi : Bool) (f : Nibble) (b : BitVec 2) : Instr :=
  if imeOperand hi f b then .ei
  else if standbyOperand hi f b then (if b == 2 then .halt else .stop)
  else if ieOperand hi f b then
    match b.toNat, f.toNat with
    | 1, 8 => .eiIeBt
    | 1, 10 => .eiIeW
    | 1, 12 => .eiIeT0
    | 1, 13 => .eiIeCsi
    | 1, 14 => .eiIe0
    | 1, _ => .eiIe2
    | _, 8 => .eiIe4
    | _, 12 => .eiIeT1
    | _, _ => .eiIe1
  else .set1Fmem hi f b

/-- `CLR1 fmem.bit`, or the spelling its operand has: DI, DI IExxx (R146, R147). -/
def decodeClr1 (hi : Bool) (f : Nibble) (b : BitVec 2) : Instr :=
  if imeOperand hi f b then .di
  else if ieOperand hi f b then
    match b.toNat, f.toNat with
    | 1, 8 => .diIeBt
    | 1, 10 => .diIeW
    | 1, 12 => .diIeT0
    | 1, 13 => .diIeCsi
    | 1, 14 => .diIe0
    | 1, _ => .diIe2
    | _, 8 => .diIe4
    | _, 12 => .diIeT1
    | _, _ => .diIe1
  else .clr1Fmem hi f b

/-- The three addressing forms of a bit-manipulation second byte (R144), for one operation. -/
def decodeBitForm (fmem : Bool → Nibble → BitVec 2 → Instr) (pmem : Nibble → Instr)
    (hmem : Nibble → BitVec 2 → Instr) (b2 : Byte) : Instr :=
  let lo : Nibble := b2.extractLsb' 0 4
  let bit : BitVec 2 := b2.extractLsb' 4 2
  if b2.getLsbD 7 then fmem (b2.getLsbD 6) lo bit
  else if b2.getLsbD 6 then pmem lo
  else hmem lo bit

/-- Second byte of the bit-manipulation first bytes (R123, R144). -/
def decodeBit (b1 b2 : Byte) : Instr :=
  if 0x50 ≤ b2 && b2 ≤ 0x7F then .unassigned b1 (some b2) else
  match b1.toNat with
  | 0x9B => decodeBitForm .mov1ToFmem .mov1ToPmem .mov1ToHmem b2
  | 0x9C => decodeBitForm decodeClr1 .clr1Pmem .clr1Hmem b2
  | 0x9D => decodeBitForm decodeSet1 .set1Pmem .set1Hmem b2
  | 0x9F => decodeBitForm .sktclrFmem .sktclrPmem .sktclrHmem b2
  | 0xAC => decodeBitForm .and1Fmem .and1Pmem .and1Hmem b2
  | 0xAE => decodeBitForm .or1Fmem .or1Pmem .or1Hmem b2
  | 0xBC => decodeBitForm .xor1Fmem .xor1Pmem .xor1Hmem b2
  | 0xBD => decodeBitForm .mov1CyFmem .mov1CyPmem .mov1CyHmem b2
  | 0xBE => decodeBitForm .skfFmem .skfPmem .skfHmem b2
  | _ => decodeBitForm .sktFmem .sktPmem .sktHmem b2

/-- The 8-bit `mem` operand: D0 is ignored (R137, D7). -/
def evenMem (m : Byte) : Byte := m &&& 0xFE

/-- The two-byte codes; none where a third byte is needed (R123, R127). -/
def decode2 (b1 b2 : Byte) : Option Instr :=
  let bit : BitVec 2 := b1.extractLsb' 4 2
  if bitFirst b1 then some (decodeBit b1 b2) else
  match b1.toNat with
  | 0x82 => some (.incsMem b2)
  | 0x84 | 0x94 | 0xA4 | 0xB4 => some (.clr1Mem b2 bit)
  | 0x85 | 0x95 | 0xA5 | 0xB5 => some (.set1Mem b2 bit)
  | 0x86 | 0x96 | 0xA6 | 0xB6 => some (.skfMem b2 bit)
  | 0x87 | 0x97 | 0xA7 | 0xB7 => some (.sktMem b2 bit)
  | 0x89 => some (.movXaImm b2)
  | 0x8B => some (.movHlImm b2)
  | 0x8D => some (.movRp2Imm .de b2)
  | 0x8F => some (.movRp2Imm .bc b2)
  | 0x92 => if evenMem b2 == 0xF4 then some .outPortXa else some (.movMemXa (evenMem b2))
  | 0x93 => if outPortMem b2 then some (.outPortA (b2.extractLsb' 0 4)) else some (.movMemA b2)
  | 0x99 => some (decode99 b2)
  | 0x9A => some (decode9A b2)
  | 0xA2 => if evenMem b2 == 0xF4 then some .inXaPort else some (.movXaMem (evenMem b2))
  | 0xA3 => if inPortMem b2 then some (.inAPort (b2.extractLsb' 0 4)) else some (.movAMem b2)
  | 0xAA => some (decodeAA b2)
  | 0xAB | 0xBA | 0xBB => if b2.getLsbD 7 then some (.unassigned b1 (some b2)) else none
  | 0xB2 => some (.xchXaMem (evenMem b2))
  | 0xB3 => some (.xchAMem b2)
  | 0xB9 => some (.addsXaImm b2)
  | _ =>
    if (b1.extractLsb' 4 4).toNat = 4 then some (.callf ((b1.extractLsb' 0 3 : BitVec 3) ++ b2))
    else some (.brcb ((b1.extractLsb' 0 4 : BitVec 4) ++ b2))

/-- The three-byte codes ABH, BAH, BBH (R127). -/
def decode3 (b1 b2 b3 : Byte) : Instr :=
  if b1 == 0xAB then
    let t : BitVec 14 := (b2.extractLsb' 0 6 : BitVec 6) ++ b3
    if b2.getLsbD 6 then .call t else .br t
  else
    let t : BitVec 15 := (b2.extractLsb' 0 7 : BitVec 7) ++ b3
    if b1 == 0xBA then .bra t else .calla t

/-- The first instruction of a list of bytes and the bytes after it (R149). -/
def decode : List Byte → Except DecodeError (Instr × List Byte)
  | [] => .error .noBytes
  | b1 :: r1 =>
    match decode1 b1 with
    | some i => .ok (i, r1)
    | none =>
      match r1 with
      | [] => .error .truncated
      | b2 :: r2 =>
        match decode2 b1 b2 with
        | some i => .ok (i, r2)
        | none =>
          match r2 with
          | [] => .error .truncated
          | b3 :: r3 => .ok (decode3 b1 b2 b3, r3)

/-- What a GETI table entry holds (R402, R404). -/
inductive Entry where
  | one (i : Instr)
  | two (i j : Instr)
  | other
deriving DecidableEq, Repr

/-- The pairs of one-byte instructions allowed in a table entry (R404). -/
def allowedPair (e0 e1 : Byte) : Bool :=
  ((e0 == 0xE1 || e0 == 0xE8 || e0 == 0xE9) && (e1 == 0xC2 || e1 == 0xCA || e1 == 0xC3 || e1 == 0xCB || e1 == 0x8A)) ||
  ((e0 == 0xE4 || e0 == 0xEC) && (e1 == 0xC4 || e1 == 0xCC || e1 == 0xC5 || e1 == 0xCD || e1 == 0x8C)) ||
  ((e0 == 0xE5 || e0 == 0xED) && (e1 == 0xC2 || e1 == 0xCA || e1 == 0xC5 || e1 == 0xCD))

/-- A GETI table entry (R402, D9): marks 00 and 01 in the upper two bits are TBR and TCALL; otherwise an allowed pair,
or a two-byte code. Whether that two-byte instruction may stand in a table (R404) is decided where it is executed. -/
def decodeEntry (e0 e1 : Byte) : Entry :=
  if !e0.getLsbD 7 then
    let t : BitVec 14 := (e0.extractLsb' 0 6 : BitVec 6) ++ e1
    if e0.getLsbD 6 then .one (.tcall t) else .one (.tbr t)
  else if lengthOf e0 = some 2 then
    match decode2 e0 e1 with
    | some i => .one i
    | none => .other
  else if allowedPair e0 e1 then
    match decode1 e0, decode1 e1 with
    | some i, some j => .two i j
    | _, _ => .other
  else .other

/-- A byte from its two nibbles. -/
def byteOf (hi lo : Nibble) : Byte := hi ++ lo

/-- The second byte of `fmem.bit` (R144). -/
def fmemByte (hi : Bool) (f : Nibble) (b : BitVec 2) : Byte := (1#1 ++ BitVec.ofBool hi) ++ b ++ f

/-- The second byte of `pmem.@L` (R144). -/
def pmemByte (g : Nibble) : Byte := byteOf 4 g

/-- The second byte of `@H+mem.bit` (R144). -/
def hmemByte (d : Nibble) (b : BitVec 2) : Byte := 0#2 ++ b ++ d

/-- The first byte of a `mem.bit` form (R123): bit number in bits 5-4, the operation in the low nibble. -/
def memBitByte (b : BitVec 2) (op : Nibble) : Byte := 2#2 ++ b ++ op

/-- A second byte with a register pair of the rp' class (R126). -/
def aaByte (op : BitVec 5) (p : RpP) : Byte := op ++ p.code

/-- A byte with a register code in its low three bits. -/
def regByte (op : BitVec 5) (r : Reg) : Byte := op ++ r.code

/-- The words of an instruction (R123 to R127, R144 to R146). The assembler's choices `BR addr`, `BR addr1` are written as
the `BR !addr` they may stand for (R330, log 35); TBR and TCALL as their two table bytes (R402, D9). -/
def encode : Instr → List Byte
  | .movAImm n => [byteOf 7 n]
  | .movReg1Imm r n => [0x9A, n ++ 1#1 ++ r.code]
  | .movXaImm n => [0x89, n]
  | .movHlImm n => [0x8B, n]
  | .movRp2Imm p n => [0x11#5 ++ p.code ++ 1#1, n]
  | .movAHl => [0xE1]
  | .movAHlInc => [0xE2]
  | .movAHlDec => [0xE3]
  | .movARpa1 .de => [0xE4]
  | .movARpa1 .dl => [0xE5]
  | .movXaHl => [0xAA, 0x18]
  | .movHlA => [0xE8]
  | .movHlXa => [0xAA, 0x10]
  | .movAMem m => [0xA3, m]
  | .movXaMem m => [0xA2, m]
  | .movMemA m => [0x93, m]
  | .movMemXa m => [0x92, m]
  | .movAReg r => [0x99, regByte 0xF r]
  | .movXaRp p => [0xAA, aaByte 0xB p]
  | .movReg1A r => [0x99, regByte 0xE r]
  | .movRpXa p => [0xAA, aaByte 0xA p]
  | .xchAHl => [0xE9]
  | .xchAHlInc => [0xEA]
  | .xchAHlDec => [0xEB]
  | .xchARpa1 .de => [0xEC]
  | .xchARpa1 .dl => [0xED]
  | .xchXaHl => [0xAA, 0x11]
  | .xchAMem m => [0xB3, m]
  | .xchXaMem m => [0xB2, m]
  | .xchAReg1 r => [regByte 0x1B r]
  | .xchXaRp p => [0xAA, aaByte 0x8 p]
  | .movtPcde => [0xD4]
  | .movtPcxa => [0xD0]
  | .movtBcde => [0xD5]
  | .movtBcxa => [0xD1]
  | .mov1CyFmem hi f b => [0xBD, fmemByte hi f b]
  | .mov1CyPmem g => [0xBD, pmemByte g]
  | .mov1CyHmem d b => [0xBD, hmemByte d b]
  | .mov1ToFmem hi f b => [0x9B, fmemByte hi f b]
  | .mov1ToPmem g => [0x9B, pmemByte g]
  | .mov1ToHmem d b => [0x9B, hmemByte d b]
  | .addsAImm n => [byteOf 6 n]
  | .addsXaImm n => [0xB9, n]
  | .addsAHl => [0xD2]
  | .addsXaRp p => [0xAA, aaByte 0x19 p]
  | .addsRpXa p => [0xAA, aaByte 0x18 p]
  | .addcAHl => [0xA9]
  | .addcXaRp p => [0xAA, aaByte 0x1B p]
  | .addcRpXa p => [0xAA, aaByte 0x1A p]
  | .subsAHl => [0xA8]
  | .subsXaRp p => [0xAA, aaByte 0x1D p]
  | .subsRpXa p => [0xAA, aaByte 0x1C p]
  | .subcAHl => [0xB8]
  | .subcXaRp p => [0xAA, aaByte 0x1F p]
  | .subcRpXa p => [0xAA, aaByte 0x1E p]
  | .andAImm n => [0x99, byteOf 3 n]
  | .andAHl => [0x90]
  | .andXaRp p => [0xAA, aaByte 0x13 p]
  | .andRpXa p => [0xAA, aaByte 0x12 p]
  | .orAImm n => [0x99, byteOf 4 n]
  | .orAHl => [0xA0]
  | .orXaRp p => [0xAA, aaByte 0x15 p]
  | .orRpXa p => [0xAA, aaByte 0x14 p]
  | .xorAImm n => [0x99, byteOf 5 n]
  | .xorAHl => [0xB0]
  | .xorXaRp p => [0xAA, aaByte 0x17 p]
  | .xorRpXa p => [0xAA, aaByte 0x16 p]
  | .rorcA => [0x98]
  | .notA => [0x99, 0x5F]
  | .incsReg r => [regByte 0x18 r]
  | .incsRp1 p => [0x11#5 ++ p.code ++ 0#1]
  | .incsHl => [0x99, 0x02]
  | .incsMem m => [0x82, m]
  | .decsReg r => [regByte 0x19 r]
  | .decsRp p => [0xAA, aaByte 0xD p]
  | .skeRegImm r n => [0x9A, n ++ 0#1 ++ r.code]
  | .skeHlImm n => [0x99, byteOf 6 n]
  | .skeAHl => [0x80]
  | .skeXaHl => [0xAA, 0x19]
  | .skeAReg r => [0x99, regByte 1 r]
  | .skeXaRp p => [0xAA, aaByte 9 p]
  | .set1Cy => [0xE7]
  | .clr1Cy => [0xE6]
  | .sktCy => [0xD7]
  | .not1Cy => [0xD6]
  | .set1Mem m b => [memBitByte b 5, m]
  | .set1Fmem hi f b => [0x9D, fmemByte hi f b]
  | .set1Pmem g => [0x9D, pmemByte g]
  | .set1Hmem d b => [0x9D, hmemByte d b]
  | .clr1Mem m b => [memBitByte b 4, m]
  | .clr1Fmem hi f b => [0x9C, fmemByte hi f b]
  | .clr1Pmem g => [0x9C, pmemByte g]
  | .clr1Hmem d b => [0x9C, hmemByte d b]
  | .sktMem m b => [memBitByte b 7, m]
  | .sktFmem hi f b => [0xBF, fmemByte hi f b]
  | .sktPmem g => [0xBF, pmemByte g]
  | .sktHmem d b => [0xBF, hmemByte d b]
  | .skfMem m b => [memBitByte b 6, m]
  | .skfFmem hi f b => [0xBE, fmemByte hi f b]
  | .skfPmem g => [0xBE, pmemByte g]
  | .skfHmem d b => [0xBE, hmemByte d b]
  | .sktclrFmem hi f b => [0x9F, fmemByte hi f b]
  | .sktclrPmem g => [0x9F, pmemByte g]
  | .sktclrHmem d b => [0x9F, hmemByte d b]
  | .and1Fmem hi f b => [0xAC, fmemByte hi f b]
  | .and1Pmem g => [0xAC, pmemByte g]
  | .and1Hmem d b => [0xAC, hmemByte d b]
  | .or1Fmem hi f b => [0xAE, fmemByte hi f b]
  | .or1Pmem g => [0xAE, pmemByte g]
  | .or1Hmem d b => [0xAE, hmemByte d b]
  | .xor1Fmem hi f b => [0xBC, fmemByte hi f b]
  | .xor1Pmem g => [0xBC, pmemByte g]
  | .xor1Hmem d b => [0xBC, hmemByte d b]
  | .br t => [0xAB, 0#2 ++ t.extractLsb' 8 6, t.extractLsb' 0 8]
  | .bra t => [0xBA, 0#1 ++ t.extractLsb' 8 7, t.extractLsb' 0 8]
  | .brFwd k => [byteOf 0 k]
  | .brBwd k => [byteOf 0xF k]
  | .brcb t => [byteOf 5 (t.extractLsb' 8 4), t.extractLsb' 0 8]
  | .brPcde => [0x99, 0x04]
  | .brPcxa => [0x99, 0x00]
  | .brBcde => [0x99, 0x05]
  | .brBcxa => [0x99, 0x01]
  | .brAuto t => [0xAB, 0#2 ++ t.extractLsb' 8 6, t.extractLsb' 0 8]
  | .brAuto1 t => [0xAB, 0#2 ++ t.extractLsb' 8 6, t.extractLsb' 0 8]
  | .tbr t => [0#2 ++ t.extractLsb' 8 6, t.extractLsb' 0 8]
  | .call t => [0xAB, 1#2 ++ t.extractLsb' 8 6, t.extractLsb' 0 8]
  | .calla t => [0xBB, 0#1 ++ t.extractLsb' 8 7, t.extractLsb' 0 8]
  | .callf t => [8#5 ++ t.extractLsb' 8 3, t.extractLsb' 0 8]
  | .tcall t => [1#2 ++ t.extractLsb' 8 6, t.extractLsb' 0 8]
  | .ret => [0xEE]
  | .rets => [0xE0]
  | .reti => [0xEF]
  | .pushRp p => [9#5 ++ p.code ++ 1#1]
  | .popRp p => [9#5 ++ p.code ++ 0#1]
  | .pushBs => [0x99, 0x07]
  | .popBs => [0x99, 0x06]
  | .ei => [0x9D, 0xB2]
  | .di => [0x9C, 0xB2]
  | .eiIeBt => [0x9D, 0x98]
  | .eiIeW => [0x9D, 0x9A]
  | .eiIeT0 => [0x9D, 0x9C]
  | .eiIeCsi => [0x9D, 0x9D]
  | .eiIe0 => [0x9D, 0x9E]
  | .eiIe2 => [0x9D, 0x9F]
  | .eiIe4 => [0x9D, 0xB8]
  | .eiIeT1 => [0x9D, 0xBC]
  | .eiIe1 => [0x9D, 0xBE]
  | .diIeBt => [0x9C, 0x98]
  | .diIeW => [0x9C, 0x9A]
  | .diIeT0 => [0x9C, 0x9C]
  | .diIeCsi => [0x9C, 0x9D]
  | .diIe0 => [0x9C, 0x9E]
  | .diIe2 => [0x9C, 0x9F]
  | .diIe4 => [0x9C, 0xB8]
  | .diIeT1 => [0x9C, 0xBC]
  | .diIe1 => [0x9C, 0xBE]
  | .inAPort n => [0xA3, byteOf 0xF n]
  | .inXaPort => [0xA2, 0xF4]
  | .outPortA n => [0x93, byteOf 0xF n]
  | .outPortXa => [0x92, 0xF4]
  | .halt => [0x9D, 0xA3]
  | .stop => [0x9D, 0xB3]
  | .nop => [0x60]
  | .selRb n => [0x99, 8#6 ++ n]
  | .selMb n => [0x99, byteOf 1 n]
  | .getiLow t => [byteOf 1 t]
  | .getiHigh t => [1#3 ++ t]
  | .unassigned b1 none => [b1]
  | .unassigned b1 (some b2) => [b1, b2]

/-- The bytes of a `nbits`-bit table word, first byte in the top bits as spec/opcode_table.json numbers them (log 1). -/
def tableBytes (nbits w : Nat) : List Byte :=
  match nbits / 8 with
  | 0 => []
  | 1 => [BitVec.ofNat 8 w]
  | 2 => [BitVec.ofNat 8 (w / 2 ^ 8), BitVec.ofNat 8 w]
  | _ => [BitVec.ofNat 8 (w / 2 ^ 16), BitVec.ofNat 8 (w / 2 ^ 8), BitVec.ofNat 8 w]

/-- The bytes of a table word followed by zero bytes up to three, the longest instruction. -/
def paddedBytes (nbits w : Nat) : List Byte :=
  (tableBytes nbits w ++ [0, 0, 0]).take 3

/-- The instruction the decoder reads from a word of spec/opcode_table.json. -/
def decodeTableWord (nbits w : Nat) : Option Instr :=
  match decode (paddedBytes nbits w) with
  | .ok (i, _) => some i
  | .error _ => none

end Sys2Proof
end

