-- ==== Sys2Proof/Config.lean ====
section
/-! DEFINITION. What a chip fixes (spec 00_scope.md R7) and the free values: constants with no body, so that no proof
can know them (logs 7, 12, 16, 17, 23, 25, 26, 28, 29, 30, 38). Each free value takes the counter `freeCount` of State
as its first argument, so that every step may have another one. -/

namespace Sys2Proof

/-- The four parts of the subseries (R1, R2). -/
inductive Part where
  | upd750064 | upd750066 | upd750068 | upd75p0076
deriving DecidableEq, Repr

/-- What is fixed for the life of a chip: the part, its mask options (R610) and its oscillators (R516). A frequency of
0 means that the oscillator is absent. -/
structure Chip where
  part : Part
  /-- RESET_WAIT: true 2^17/fX, false 2^15/fX (on the μPD75P0076 always 2^15/fX). -/
  resetWaitLong : Bool
  pullup4 : BitVec 4
  pullup5 : BitVec 4
  /-- SUBCLK_FEEDBACK: the feedback resistor is usable (a mask ROM part only, see `Chip.feedbackUsable`). -/
  feedback : Bool
  fxHz : Nat
  fxtHz : Nat
deriving DecidableEq, Repr

/-- Which key inputs set IRQ2 (R428). -/
inductive KeySel where
  | int2Rising | kr23Falling | kr03Falling
deriving DecidableEq, Repr, Inhabited

namespace Config

/-- UNMAPPED_READ (D5, U6, U7, U28): what a nibble without readable hardware reads as. -/
opaque unmappedRead : Nat → DAddr → Nibble
/-- U15: the other latch bits of a port after a bit write in input mode; second argument the port number. -/
opaque latchNoise : Nat → Nat → Nibble
/-- U12: a write of IM0, IM1, IM2 (second argument 0, 1, 2) sets its request flag in this step. -/
opaque edgeGlitch : Nat → Nat → Bool
/-- U18: what a read of BT that meets a count clock edge returns; none: the stable count. -/
opaque btUnstable : Nat → Option Byte
/-- U20: IRQTn (second argument n) after a start that coincides with a match. -/
opaque startCoincidence : Nat → Nat → Bool
/-- R559 (4): a glitch pulse reaches channel n (second argument) when its count pulse is changed without a restart. -/
opaque glitchPulse : Nat → Nat → Bool
/-- U22: IRQT1 is set by a match of T1 and TMOD1 in 16-bit mode. -/
opaque irqt1In16 : Nat → Bool
/-- R559 (4): Tn (second argument n) after its count pulse was changed without a restart; none: undisturbed. -/
opaque timerDestroyed : Nat → Nat → Option Byte
/-- R515: the delay of a clock change, taken modulo (maximum + 1). -/
opaque clockDelay : Nat → Nat
/-- R572: the delay from SOC to the start of the conversion, taken modulo 17 fX periods. -/
opaque adcDelay : Nat → Nat
/-- R573: what SA reads as while it is undefined. -/
opaque adcUnspecified : Nat → Byte
/-- U26: the result of a conversion that was frozen while fX was stopped. -/
opaque adcFrozen : Nat → Byte
/-- IM2_CODES (R428, N5): the key selection of the codes 01, 10, 11. -/
opaque im2Codes : BitVec 2 → KeySel
/-- U8: the nibble at SP-1 (second argument 0) and the x bits (argument 1) of a Mk II call frame. -/
opaque frameFree : Nat → Nat → Nibble
/-- U27: SP after RESET. -/
opaque resetSp : Nat → Byte
/-- U27: BT after RESET. -/
opaque resetBt : Nat → Byte
/-- U27: CY after a RESET during operation. -/
opaque resetCy : Nat → Bool
/-- U27: SIO after a RESET during operation. -/
opaque resetSio : Nat → Byte
/-- U25: the SO latch after RESET. -/
opaque resetSo : Nat → Bool
/-- U27: the bit sequential buffer after a RESET during operation. -/
opaque resetBsb : Nat → BitVec 16
/-- U27: the data memory word at an address after a RESET during operation. -/
opaque resetRam : Nat → Nat → Nibble
/-- U27: the phase of the fX divider after RESET. -/
opaque resetDiv : Nat → BitVec 12
/-- The phase of fXT within a period of fX after a reset operation, which the spec does not give (R606, log 38). -/
opaque resetFxtRem : Nat → Nat
/-- The phase of fX within a period of fXT after a reset operation (R606, log 38). -/
opaque resetFxRem : Nat → Nat
/-- R521: the level at which the CPU clock Φ stands after the machine cycles of a step. -/
opaque phiLevel : Nat → Bool
/-- R541: the level at which the clock of the prohibited frequency code 10 stands after a step in which fW ran. -/
opaque buzLevel : Nat → Bool

end Config

end Sys2Proof
end

