-- ==== Sys2Proof/Machine/State.lean ====
section
/-! DEFINITION. Everything the spec gives the machine, as plain data (INVENTORY.md '## State' lists each field with its
rule), the reasons a step can stop, and the state after reset (R601, R602, R606). -/

namespace Sys2Proof.Machine

/-- Why the machine stops with a fault. -/
inductive Fault where
  /-- A program memory read at or above ROMSIZE (R82, D4, U2): raised by instruction fetch, the fetch of a skipped
  instruction's first byte, MOVT, and ADDC A,@HL and SUBC A,@HL for the byte behind them; GETI and the vector fetches
  read below 80H, where every part has a ROM. Safe. -/
  | beyondRom (address : Nat)
deriving DecidableEq, Repr

/-- Why the machine refuses to go on. -/
inductive Refusal where
  /-- An arm of `exec` without a meaning. Safe. -/
  | notModelled (mnemonic : String)
  /-- An unassigned code is executed (R148, U1, D8): raised by the meaning of `Instr.unassigned`. Safe. -/
  | unassigned (b1 : Byte) (b2 : Option Byte)
  /-- The instruction to be skipped has an unassigned first byte, so its length is unknown (R148, U1): raised by the
  skip. Safe. -/
  | unassignedSkip (b1 : Byte)
  /-- BRA or CALLA in Mk I mode (R322, R353, U9). Safe. -/
  | mkIIOnly
  /-- A GETI table entry that R404 does not allow (U11): raised by GETI. Safe. -/
  | getiEntry (e0 e1 : Byte)
  /-- STOP on the subsystem clock (R451, U14, log 51): raised by a write that sets PCC bit 3. Safe. -/
  | stopOnSubclock
  /-- SCC.3 set while the CPU runs on the main system clock (R513, U16). Safe. -/
  | mainStopOnMain
  /-- A prohibited code of BTM2-0 (R531, U17): raised by a 4-bit write of BTM. Safe. -/
  | btmCode
  /-- A prohibited mode of TMn, or TM1 other than 22H in 16-bit mode (R551, U19): raised by a write of TMn. Safe. -/
  | timerMode
  /-- A prohibited value of CSIM (R561, U23): raised by an 8-bit write of CSIM. Safe. -/
  | csimCode
  /-- Fewer bytes were given than the first byte asks for. Raised by `step` only if the fetch did not fill the
  instruction, which the fetch rules out. Safe. -/
  | truncatedCode
deriving DecidableEq, Repr

/-- The stacked-instruction state that SK1, SK2 stand for (R31, R129). -/
inductive Stacked where
  | none | groupA | groupB
deriving DecidableEq, Repr

/-- What the CPU is doing (R44, R450, R600, R603): `resetHeld` is /RESET still low after the reset operation, `resetWait`
holds the fX periods left of the wait after RESET. -/
inductive Standby where
  | run | halt | stop | wait | resetHeld | resetWait (left : Nat)
deriving DecidableEq, Repr

/-- One flag for each interrupt or test source (R40): the IRQxxx, the IExxx, or a snapshot. -/
structure Flags where
  bt : Bool
  int4 : Bool
  int0 : Bool
  int1 : Bool
  csi : Bool
  t0 : Bool
  t1 : Bool
  w : Bool
  int2 : Bool
deriving DecidableEq, Repr

/-- All nine flags 0. -/
def Flags.zero : Flags := ⟨false, false, false, false, false, false, false, false, false⟩

/-- The interrupt controller (R39, R40, R426 to R428, R435, R444, R456). -/
structure Interrupts where
  ime : Bool
  ips : BitVec 3
  irq : Flags
  ie : Flags
  im0 : BitVec 4
  im1 : Bool
  im2 : BitVec 2
  visible : Flags
  holdoff : Bool
  releaseHold : Nat
  win0 : Nat
  win1 : Nat
  win2 : Nat
deriving DecidableEq, Repr

/-- Previously seen levels of the edge-detected pins and the INT0 noise eliminator (R44, R425, R426). -/
structure Edges where
  int0 : Bool
  int1 : Bool
  int2 : Bool
  int4 : Bool
  ti0 : Bool
  ti1 : Bool
  sck : Bool
  kr : BitVec 4
  nfOut : Bool
  nfCount : Nat
deriving DecidableEq, Repr

/-- The CPU clock Φ: on the subsystem clock, and the two PCC bits that select it otherwise (R511). -/
structure Phi where
  sub : Bool
  sel : BitVec 2
deriving DecidableEq, Repr

/-- The clock generator and the clock output circuit (R510 to R521). `pcl` is the frequency code that the PCL gate lets
through now (R520), `phiHigh` the level at which Φ stands (R521, log 37). -/
structure ClockGen where
  pcc : BitVec 4
  scc0 : Bool
  scc3 : Bool
  phi : Phi
  switchIn : Option Nat
  sos : BitVec 2
  clom : BitVec 4
  pcl : Option (BitVec 2)
  phiHigh : Bool
  div : BitVec 12
  fxRem : Nat
  fxtRem : Nat
deriving DecidableEq, Repr

/-- The basic interval timer / watchdog timer (R530 to R536). -/
structure BasicTimer where
  btm : BitVec 3
  count : BitVec 8
  wdtm : Bool
deriving DecidableEq, Repr

/-- The watch timer (R540 to R543). `buzHigh` is the level at which BUZ stands with the prohibited frequency code
10 (R518, log 42). -/
structure WatchTimer where
  wm : BitVec 8
  div : BitVec 14
  buzHigh : Bool
deriving DecidableEq, Repr

/-- A timer/event counter (R550 to R559). -/
structure TimerCounter where
  cp : BitVec 3
  run : Bool
  mode : BitVec 2
  count : BitVec 8
  modulo : BitVec 8
  toe : Bool
  tout : Bool
deriving DecidableEq, Repr

/-- The serial interface (R561 to R569). -/
structure Serial where
  csim : BitVec 8
  sio : BitVec 8
  soLatch : Bool
  count : Nat
  running : Bool
  sckLow : Bool
  p01 : Bool
deriving DecidableEq, Repr

/-- An A/D conversion in progress: fX periods left, its result, and whether fX stopped under it (R572, U26). -/
structure Conversion where
  left : Nat
  result : BitVec 8
  frozen : Bool
deriving DecidableEq, Repr

/-- The A/D converter (R571 to R575). `pending` is SOC with the fX periods left until the conversion starts. -/
structure Adc where
  aden : Bool
  ch : BitVec 3
  eoc : Bool
  pending : Option Nat
  conv : Option Conversion
  sa : BitVec 8
  saValid : Bool
deriving DecidableEq, Repr

/-- Output latches and mode registers of the ports (R486, R493 to R495). -/
structure Ports where
  latch2 : BitVec 4
  latch3 : BitVec 4
  latch4 : BitVec 4
  latch5 : BitVec 4
  latch6 : BitVec 4
  pmga : BitVec 8
  pm2 : Bool
  pm4 : Bool
  pm5 : Bool
  poga : BitVec 8
deriving DecidableEq, Repr

/-- What feeds the subsystem clock (R482, R514, R516): nothing, a crystal on the chip's own oscillator, or an external
clock. -/
inductive SubClock where
  | absent | crystal | external
deriving DecidableEq, Repr

/-- What the host presents at one moment (R482): the levels driven from outside on the ports' pins, XT1, /RESET
asserted, whether the main oscillator is present and what feeds the subsystem clock, and the A/D result of each channel
(R575). -/
structure HostPins where
  p0 : BitVec 4
  p1 : BitVec 4
  p2 : BitVec 4
  p3 : BitVec 4
  p4 : BitVec 4
  p5 : BitVec 4
  p6 : BitVec 4
  p11 : BitVec 4
  xt1 : Bool
  resetAsserted : Bool
  fx : Bool
  fxt : SubClock
  an : Vector (BitVec 8) 8
deriving DecidableEq, Repr

/-- The whole machine. -/
structure State where
  chip : Chip
  /-- Program memory in canonical form: the bytes that differ from `romDefault` (log 3). -/
  rom : List Host.Cell
  /-- Data memory 000H-1FFH in canonical form: the words that differ from 0 (log 4). -/
  ram : List (Nat × BitVec 4)
  pc : BitVec 14
  cy : Bool
  stacked : Stacked
  addsNoskip : Bool
  ist : BitVec 2
  mbe : Bool
  rbe : Bool
  sp : BitVec 8
  sbs : BitVec 4
  mbs : BitVec 4
  rbs : BitVec 2
  ints : Interrupts
  edges : Edges
  clk : ClockGen
  bt : BasicTimer
  watch : WatchTimer
  timer0 : TimerCounter
  timer1 : TimerCounter
  serial : Serial
  adc : Adc
  bsb0 : BitVec 4
  bsb1 : BitVec 4
  bsb2 : BitVec 4
  bsb3 : BitVec 4
  ports : Ports
  standby : Standby
  resetReq : Bool
  pins : HostPins
  pinQueue : List HostPins
  cycles : Nat
  /-- `cycles` when the instruction in execution began. -/
  startedAt : Nat
  freeCount : Nat
deriving DecidableEq, Repr

/-- What a program memory byte that the host has not loaded reads as: 60H, the code of NOP (log 3). -/
def romDefault : Byte := 0x60

/-- What a data memory word that nothing has written reads as (log 4). -/
def ramDefault : Nibble := 0

/-- The interrupt controller after RESET (R601, R606). -/
def Interrupts.reset : Interrupts :=
  { ime := false, ips := 0, irq := Flags.zero, ie := Flags.zero, im0 := 0, im1 := false, im2 := 0,
    visible := Flags.zero, holdoff := false, releaseHold := 0, win0 := 0, win1 := 0, win2 := 0 }

/-- A timer/event counter after RESET (R601). -/
def TimerCounter.reset : TimerCounter :=
  { cp := 0, run := false, mode := 0, count := 0, modulo := 0xFF, toe := false, tout := false }

/-- The ports after RESET: latches 0, input mode, pull-ups off (R601). -/
def Ports.reset : Ports :=
  { latch2 := 0, latch3 := 0, latch4 := 0, latch5 := 0, latch6 := 0, pmga := 0, pm2 := false, pm4 := false,
    pm5 := false, poga := 0 }

/-- The A/D converter after RESET: ADM = 04H, SA = 7FH, no conversion (R601, R606). -/
def Adc.reset : Adc :=
  { aden := false, ch := 0, eoc := true, pending := none, conv := none, sa := 0x7F, saValid := true }

/-- The model's quiet host: all pins low, /RESET not asserted, both oscillators present (log 5). -/
def HostPins.quiet : HostPins :=
  { p0 := 0, p1 := 0, p2 := 0, p3 := 0, p4 := 0, p5 := 0, p6 := 0, p11 := 0, xt1 := false, resetAsserted := false,
    fx := true, fxt := .crystal, an := Vector.replicate 8 0 }

/-- The machine right after reset (R601, R602, R606), the wait of R603 over. Fields the spec leaves undefined hold 0
(log 5); the reset vector is read from the unlisted program memory bytes 60H, 60H (log 3): MBE = 0, RBE = 1,
PC = 0060H. -/
def State.reset : State :=
  { chip := { part := .upd750068, resetWaitLong := true, pullup4 := 0, pullup5 := 0, feedback := true,
              fxHz := 4194304, fxtHz := 32768 }
    rom := [], ram := [], pc := 0x0060, cy := false, stacked := .none, addsNoskip := false, ist := 0,
    mbe := false, rbe := true, sp := 0, sbs := 0x8, mbs := 0, rbs := 0,
    ints := Interrupts.reset,
    edges := { int0 := false, int1 := false, int2 := false, int4 := false, ti0 := false, ti1 := false, sck := false,
               kr := 0, nfOut := false, nfCount := 0 },
    clk := { pcc := 0, scc0 := false, scc3 := false, phi := { sub := false, sel := 0 }, switchIn := none, sos := 0,
             clom := 0, pcl := none, phiHigh := false, div := 0, fxRem := 0, fxtRem := 0 },
    bt := { btm := 0, count := 0, wdtm := false },
    watch := { wm := 0, div := 0, buzHigh := false },
    timer0 := TimerCounter.reset, timer1 := TimerCounter.reset,
    serial := { csim := 0, sio := 0, soLatch := false, count := 0, running := false, sckLow := false, p01 := true },
    adc := Adc.reset, bsb0 := 0, bsb1 := 0, bsb2 := 0, bsb3 := 0, ports := Ports.reset,
    standby := .run, resetReq := false, pins := HostPins.quiet, pinQueue := [], cycles := 0,
    startedAt := 0, freeCount := 0 }

end Sys2Proof.Machine
end

