-- ==== Sys2Proof/Machine/Memory.lean ====
section
/-! DEFINITION. Sparse memory in canonical form: (address, value) pairs with strictly rising addresses below a limit, none
holding the value an unlisted address reads as. Used with bytes for program memory (R81) and with 4-bit words for data
memory (R80, log 6). -/

namespace Sys2Proof.Machine

/-- The value at an address; `d` where the address is not listed. -/
def cellRead {α : Type} (d : α) : List (Nat × α) → Nat → α
  | [], _ => d
  | (k, v) :: t, a => if a = k then v else cellRead d t a

/-- Store a value, keeping the canonical form. -/
def cellWrite {α : Type} [DecidableEq α] (d : α) : List (Nat × α) → Nat → α → List (Nat × α)
  | [], a, v => if v = d then [] else [(a, v)]
  | (k, w) :: t, a, v =>
    if a < k then (if v = d then (k, w) :: t else (a, v) :: (k, w) :: t)
    else if a = k then (if v = d then t else (a, v) :: t)
    else (k, w) :: cellWrite d t a v

/-- Addresses rise strictly from `lo` on and stay below `limit`; no value equals `d`. -/
def cellWf {α : Type} [DecidableEq α] (d : α) (limit : Nat) : Nat → List (Nat × α) → Bool
  | _, [] => true
  | lo, (k, v) :: t => decide (lo ≤ k) && decide (k < limit) && decide (v ≠ d) && cellWf d limit (k + 1) t

/-- The canonical form of a memory of `limit` words whose unlisted words read as `d`. -/
def Memory.wf {α : Type} [DecidableEq α] (d : α) (limit : Nat) (m : List (Nat × α)) : Bool :=
  cellWf d limit 0 m

/-- The first `n` words of `f`, in canonical form (used when RESET leaves RAM undefined, R606). -/
def cellFill {α : Type} [DecidableEq α] (d : α) (f : Nat → α) : Nat → List (Nat × α)
  | 0 => []
  | n + 1 => cellWrite d (cellFill d f n) n (f n)

/-- Words of data memory, R80. -/
def ramSize : Nat := 512

end Sys2Proof.Machine
end

