-- ==== Sys2Proof/Machine/Parts.lean ====
section
/-! DEFINITION. What depends on the part (R2, R7): the width of the program counter, the size of program memory, the
wait after RESET; and reading program memory (R81, R82, R100). -/

namespace Sys2Proof

/-- PCW (R26). -/
def Part.pcWidth : Part → Nat
  | .upd750064 => 12
  | .upd750066 => 13
  | .upd750068 => 13
  | .upd75p0076 => 14

/-- ROMSIZE (R81). -/
def Part.romSize : Part → Nat
  | .upd750064 => 4096
  | .upd750066 => 6144
  | .upd750068 => 8192
  | .upd75p0076 => 16384

/-- The wait after RESET in fX periods (R603): the μPD75P0076 has no mask option. -/
def Chip.resetWait (c : Chip) : Nat :=
  if c.resetWaitLong && decide (c.part ≠ .upd75p0076) then 2 ^ 17 else 2 ^ 15

/-- The feedback resistor of the subsystem oscillator is usable (R2, R7, R483): always on the μPD75P0076. -/
def Chip.feedbackUsable (c : Chip) : Bool := c.feedback || decide (c.part = .upd75p0076)

namespace Machine

/-- The low PCW bits of a program address (R27, D1, D11). -/
def State.truncPc (s : State) (a : Nat) : BitVec 14 := BitVec.ofNat 14 (a % 2 ^ s.chip.part.pcWidth)

/-- `ROM[a]`, `a` modulo 2^PCW; none at or above ROMSIZE (R82). -/
def State.romByte (s : State) (a : Nat) : Option Byte :=
  let a := a % 2 ^ s.chip.part.pcWidth
  if a < s.chip.part.romSize then some (cellRead romDefault s.rom a) else none

/-- The program address a read beyond the ROM is reported with (R82). -/
def State.romAddr (s : State) (a : Nat) : Nat := a % 2 ^ s.chip.part.pcWidth

end Machine

end Sys2Proof
end

