-- ==== Sys2Proof/Machine/Ports.lean ====
section
/-! DEFINITION. The digital ports (65_peripherals.md R484 to R489), the pins they share with the timers, the clock and
buzzer outputs and the serial interface (R488, R521, R543, R556, R566, R567), and what the host can observe on a pin
(R482). -/

namespace Sys2Proof.Machine

/-- A nibble from its bits, bit 3 first. -/
def nib (b3 b2 b1 b0 : Bool) : Nibble :=
  BitVec.ofBool b3 ++ BitVec.ofBool b2 ++ BitVec.ofBool b1 ++ BitVec.ofBool b0

/-- All four bits equal to `b`. -/
def nibAll (b : Bool) : Nibble := if b then 0xF else 0

/-- Bit `b` of a nibble. -/
def nibBit (v : Nibble) (b : BitVec 2) : Bool := v.getLsbD b.toNat

/-- A nibble with bit `b` changed to `v`. -/
def nibSet (w : Nibble) (b : BitVec 2) (v : Bool) : Nibble :=
  if v then w ||| (1#4 <<< b.toNat) else w &&& ~~~(1#4 <<< b.toNat)

/-- Per bit: `t` where the mask is 1, `e` where it is 0. -/
def nibMux (mask t e : Nibble) : Nibble := (mask &&& t) ||| (~~~mask &&& e)

/-- Which bits of a port are in output mode (R493, R494). -/
def State.portMode (s : State) (n : Nat) : Nibble :=
  match n with
  | 2 => nibAll s.ports.pm2
  | 3 => s.ports.pmga.extractLsb' 0 4
  | 4 => nibAll s.ports.pm4
  | 5 => nibAll s.ports.pm5
  | 6 => s.ports.pmga.extractLsb' 4 4
  | _ => 0

/-- The output latch of a port (R486); ports 0, 1, 11 have none (R487). -/
def State.portLatch (s : State) (n : Nat) : Nibble :=
  match n with
  | 2 => s.ports.latch2
  | 3 => s.ports.latch3
  | 4 => s.ports.latch4
  | 5 => s.ports.latch5
  | 6 => s.ports.latch6
  | _ => 0

/-- The levels the host drives on a port's pins (R482). -/
def State.hostPin (s : State) (n : Nat) : Nibble :=
  match n with
  | 0 => s.pins.p0
  | 1 => s.pins.p1
  | 2 => s.pins.p2
  | 3 => s.pins.p3
  | 4 => s.pins.p4
  | 5 => s.pins.p5
  | 6 => s.pins.p6
  | 11 => s.pins.p11
  | _ => 0

/-- The clock that a frequency code of CLOM selects (R521), before the gate: code 00 is Φ itself, the others are taps of
the fX divider. -/
def ClockGen.pclClock (c : ClockGen) (k : BitVec 2) : Bool :=
  if k = 0 then c.phiHigh else c.div.getLsbD (2 * k.toNat - 1)

/-- The clock output PCL (R520, R521): low while the gate is closed. -/
def State.pclLevel (s : State) : Bool :=
  match s.clk.pcl with
  | none => false
  | some k => s.clk.pclClock k

/-- The level of fXT: high in the second half of each of its periods, as the taps of the dividers are (R543; DESIGN CHOICE,
log 42). `fxtRem` is its phase while time is counted in fX; on the subsystem clock an advance is whole periods. -/
def State.fxtHigh (s : State) : Bool := decide (s.chip.fxHz ≤ 2 * s.clk.fxtRem)

/-- The buzzer output BUZ (R541, R543): a tap of the watch timer's divider, also while WM2 = 0 holds it cleared; fX/2^7 or
fXT undivided; or for the prohibited code 10 the level at which it stands (log 42). -/
def State.buzLevel (s : State) : Bool :=
  s.watch.wm.getLsbD 7 &&
    match (s.watch.wm.extractLsb' 4 2).toNat with
    | 0 => s.watch.div.getLsbD 3
    | 1 => s.watch.div.getLsbD 2
    | 3 => if s.watch.wm.getLsbD 0 then s.fxtHigh else s.clk.div.getLsbD 6
    | _ => s.watch.buzHigh

/-- The function outputs that share the pins of port 2: BUZ, PCL, PTO1, PTO0 (R488, R556). -/
def State.port2Function (s : State) : Nibble :=
  nib s.buzLevel s.pclLevel (s.timer1.toe && s.timer1.tout) (s.timer0.toe && s.timer0.tout)

/-- CSIE (R561). -/
def Serial.csie (u : Serial) : Bool := u.csim.getLsbD 7

/-- 2-wire serial I/O mode (R561): CSIM3 = 1. -/
def Serial.twoWire (u : Serial) : Bool := u.csim.getLsbD 3

/-- The /SCK pin is an output (CSIM1,0 not 00, R561). -/
def Serial.sckOut (u : Serial) : Bool := u.csim.extractLsb' 0 2 != 0#2

/-- The levels on the pins of PORT0 (R487, R566, R567): P01 is /SCK = internal clock AND P01 latch when an output; P02
is SO, or SB0, and P03 is SB1, an open-drain line. With CSIE = 0 and the P01 latch 0 R561 and R567 say high level, the
formula of R566 low: the model takes the formula, here and in `pinDrive` (DESIGN CHOICE, log 54). -/
def State.port0Pins (s : State) : Nibble :=
  let e := s.pins.p0
  let u := s.serial
  let p1 := if u.sckOut then (!u.sckLow) && u.p01 else e.getLsbD 1
  let p2 := if u.csie && !u.twoWire then u.soLatch
            else if u.csie && u.twoWire && !u.csim.getLsbD 4 then u.soLatch && e.getLsbD 2
            else e.getLsbD 2
  let p3 := if u.csie && u.twoWire && u.csim.getLsbD 4 then u.soLatch && e.getLsbD 3 else e.getLsbD 3
  nib p3 p2 p1 (e.getLsbD 0)

/-- The levels on a port's pins (R486 to R489): CMOS outputs drive the latch (port 2 the latch OR its function output),
the open-drain outputs of ports 4 and 5 give latch AND outside. -/
def State.pinLevels (s : State) (n : Nat) : Nibble :=
  let m := s.portMode n
  match n with
  | 0 => s.port0Pins
  | 2 => nibMux m (s.portLatch 2 ||| s.port2Function) (s.hostPin 2)
  | 4 => nibMux m (s.portLatch 4 &&& s.hostPin 4) (s.hostPin 4)
  | 5 => nibMux m (s.portLatch 5 &&& s.hostPin 5) (s.hostPin 5)
  | n => nibMux m (s.portLatch n) (s.hostPin n)

/-- The noise eliminator is selected for INT0 (IM02 = 0, R426). -/
def State.int0Filtered (s : State) : Bool := !s.ints.im0.getLsbD 2

/-- What a read of a port takes in (R486, R487): the latch where a bit is in output mode, the pin otherwise; P10 comes
through the noise eliminator while that is selected. -/
def State.readPort (s : State) (n : Nat) : Nibble :=
  match n with
  | 0 => s.port0Pins
  | 1 => if s.int0Filtered then nibSet (s.hostPin 1) 0 s.edges.nfOut else s.hostPin 1
  | 11 => s.hostPin 11
  | n => nibMux (s.portMode n) (s.portLatch n) (s.hostPin n)

/-- Write a port's output latch (R486); ports without one discard the write (R98). -/
def State.setLatch (s : State) (n : Nat) (v : Nibble) : State :=
  match n with
  | 2 => { s with ports := { s.ports with latch2 := v } }
  | 3 => { s with ports := { s.ports with latch3 := v } }
  | 4 => { s with ports := { s.ports with latch4 := v } }
  | 5 => { s with ports := { s.ports with latch5 := v } }
  | 6 => { s with ports := { s.ports with latch6 := v } }
  | _ => s

/-- The latch after a bit write (R486, Table 5-3): the addressed bit is written; another bit keeps its value when the
addressed bit and that bit are in output mode, and is undefined otherwise (U15, log 30). -/
def State.latchAfterBit (s : State) (n : Nat) (b : BitVec 2) (v : Bool) : Nibble :=
  let m := s.portMode n
  let kept := if nibBit m b then m else 0
  nibSet (nibMux kept (s.portLatch n) (Config.latchNoise s.freeCount n)) b v

/-- What the chip does to a pin, as the host can observe it (R482). -/
inductive Drive where
  | level (high : Bool)
  | pulledUp
  | highImpedance
deriving DecidableEq, Repr

/-- The built-in pull-up of a pin is connected (R483, R495). -/
def State.pullUp (s : State) (n : Nat) (b : BitVec 2) : Bool :=
  match n with
  | 0 => s.ports.poga.getLsbD 0 && b != 0
  | 1 => s.ports.poga.getLsbD 1
  | 2 => s.ports.poga.getLsbD 2
  | 3 => s.ports.poga.getLsbD 3 && !nibBit (s.portMode 3) b
  | 4 => nibBit s.chip.pullup4 b && decide (s.chip.part ≠ .upd75p0076)
  | 5 => nibBit s.chip.pullup5 b && decide (s.chip.part ≠ .upd75p0076)
  | 6 => s.ports.poga.getLsbD 6 && !nibBit (s.portMode 6) b
  | _ => false

/-- A pin that nothing of the chip drives. -/
def State.released (s : State) (n : Nat) (b : BitVec 2) : Drive :=
  if s.pullUp n b then .pulledUp else .highImpedance

/-- What the chip does to pin `b` of port `n` (R486 to R489, R566, R567). -/
def State.pinDrive (s : State) (n : Nat) (b : BitVec 2) : Drive :=
  let u := s.serial
  let open_ (low : Bool) : Drive := if low then .level false else s.released n b
  match n with
  | 0 =>
    match b.toNat with
    | 1 => if u.sckOut then .level ((!u.sckLow) && u.p01) else s.released 0 b
    | 2 => if u.csie && !u.twoWire then .level u.soLatch
           else if u.csie && !u.csim.getLsbD 4 then open_ (!u.soLatch) else s.released 0 b
    | 3 => if u.csie && u.twoWire && u.csim.getLsbD 4 then open_ (!u.soLatch) else s.released 0 b
    | _ => s.released 0 b
  | 4 => open_ (nibBit (s.portMode 4) b && !nibBit s.ports.latch4 b)
  | 5 => open_ (nibBit (s.portMode 5) b && !nibBit s.ports.latch5 b)
  | 2 => if s.ports.pm2 then .level (nibBit (s.ports.latch2 ||| s.port2Function) b) else s.released 2 b
  | n => if nibBit (s.portMode n) b then .level (nibBit (s.portLatch n) b) else s.released n b

end Sys2Proof.Machine
end

