-- ==== Sys2Proof/Machine/Clock.lean ====
section
/-! DEFINITION. The clock generator (65_peripherals.md R510 to R518): the CPU clock in effect, the time that machine
cycles take in fX and fXT periods (R590, D15), clock changes (R515) and the clock output gate (R520). -/

namespace Sys2Proof.Machine

/-- fX periods in a machine cycle on the main system clock (R511). -/
def Phi.fxPerCycle (p : Phi) : Nat :=
  match p.sel.toNat with
  | 0 => 64
  | 1 => 16
  | 2 => 8
  | _ => 4

/-- The main oscillator is present: the host says so at each moment, and it has a frequency (R482, R516, log 2). -/
def State.fxPresent (s : State) : Bool := decide (s.chip.fxHz ≠ 0) && s.pins.fx

/-- The main system clock oscillates: present, not in STOP mode, SCC.3 = 0 (R516, R518). -/
def State.fxRunning (s : State) : Bool := decide (s.standby ≠ .stop) && !s.clk.scc3 && s.fxPresent

/-- The subsystem clock runs (R482, R514): an external clock, or a crystal while SOS.0 = 0 and the feedback resistor is
usable. -/
def State.fxtRunning (s : State) : Bool :=
  decide (s.chip.fxtHz ≠ 0) &&
    match s.pins.fxt with
    | .absent => false
    | .crystal => !s.clk.sos.getLsbD 0 && s.chip.feedbackUsable
    | .external => true

/-- The oscillator that the CPU clock in effect comes from is running (R518): without it no instruction executes. -/
def State.phiRuns (s : State) : Bool := if s.clk.phi.sub then s.fxtRunning else s.fxRunning

/-- Time that passes for the devices: machine cycles of the CPU clock, fX periods, fXT periods. -/
structure Elapsed where
  cycles : Nat
  fx : Nat
  fxt : Nat
deriving DecidableEq, Repr

/-- Time is counted in fX periods: fX runs, and the CPU is not on a running subsystem clock. -/
def State.onFx (s : State) : Bool := s.fxRunning && !(s.clk.phi.sub && s.fxtRunning)

/-- The time that `c` machine cycles take (R590): c × (4, 8, 16, 64) fX periods on the main system clock, c × 4 fXT
periods on the subsystem clock; the other oscillator's periods follow from the two frequencies, and an oscillator that
does not run has none. While the CPU clock's own oscillator stands still (STOP mode, or absent) no machine cycle passes and
a quantum is 4 periods of fXT, or a machine cycle's worth of fX (log 22). -/
def State.elapsed (s : State) (c : Nat) : Elapsed :=
  let k := if s.phiRuns then c else 0
  if s.onFx then
    { cycles := k, fx := c * s.clk.phi.fxPerCycle,
      fxt := if s.fxtRunning then (s.clk.fxtRem + c * s.clk.phi.fxPerCycle * s.chip.fxtHz) / s.chip.fxHz else 0 }
  else if s.fxtRunning then
    { cycles := k, fxt := 4 * c,
      fx := if s.fxRunning then (s.clk.fxRem + 4 * c * s.chip.fxHz) / s.chip.fxtHz else 0 }
  else { cycles := k, fx := 0, fxt := 0 }

/-- The remainders of the conversion between the two oscillators after the time of `elapsed`. -/
def State.keepRemainders (s : State) (c : Nat) : State :=
  if s.onFx then
    if s.fxtRunning then
      { s with clk := { s.clk with
          fxtRem := (s.clk.fxtRem + c * s.clk.phi.fxPerCycle * s.chip.fxtHz) % s.chip.fxHz } }
    else s
  else if s.fxtRunning && s.fxRunning then
    { s with clk := { s.clk with fxRem := (s.clk.fxRem + 4 * c * s.chip.fxHz) % s.chip.fxtHz } }
  else s

/-- Carries out of bit k-1 of the fX divider during `n` fX periods: ticks of fX/2^k (R530). -/
def divTicks (d : BitVec 12) (n k : Nat) : Nat := (d.toNat + n) / 2 ^ k - d.toNat / 2 ^ k

/-- The CPU clock that PCC and SCC select (R511). -/
def ClockGen.target (c : ClockGen) : Phi := { sub := c.scc0, sel := c.pcc.extractLsb' 0 2 }

/-- The same CPU clock: on the subsystem clock the PCC bits do not matter (R512). -/
def Phi.same (p q : Phi) : Bool := (p.sub && q.sub) || (!p.sub && !q.sub && p.sel == q.sel)

/-- The longest delay of a clock change, in machine cycles of the clock before it (Table 5-5, R515). -/
def Phi.maxDelay (p q : Phi) (chip : Chip) : Nat :=
  if p.sub then 1
  else if q.sub then (chip.fxHz + p.fxPerCycle * chip.fxtHz - 1) / (p.fxPerCycle * chip.fxtHz)
  else 64 / p.fxPerCycle

/-- The oscillator that a CPU clock needs is running (log 23). -/
def State.available (s : State) (p : Phi) : Bool :=
  if p.sub then s.fxtRunning else s.fxPresent && !s.clk.scc3

/-- `c` machine cycles of a pending clock change (R515). That the quanta of HALT mode and of the waits, in which Φ stands
still, count too is the model's choice, and so is that a delay which ends inside an advance (an instruction's machine cycles
but the last) gives the new clock at its end, the old one timing all of it (DESIGN CHOICE, log 23). -/
def State.tickSwitch (s : State) (c : Nat) : State :=
  match s.clk.switchIn with
  | none => s
  | some d =>
    if d ≤ c then
      if s.available s.clk.target then { s with clk := { s.clk with phi := s.clk.target, switchIn := none } }
      else { s with clk := { s.clk with switchIn := some 0 } }
    else { s with clk := { s.clk with switchIn := some (d - c) } }

/-- Start a clock change if the instruction that led from `before` to `s` selected another CPU clock (R515): the delay
is free between 0 and the table's maximum. -/
def State.armSwitch (s before : State) : State :=
  let t := s.clk.target
  if t.same before.clk.target then s
  else if t.same s.clk.phi then { s with clk := { s.clk with phi := t, switchIn := none } }
  else
    { s with clk := { s.clk with
        switchIn := some (Config.clockDelay s.freeCount % (s.clk.phi.maxDelay t s.chip + 1)) } }.tickSwitch 0

/-- Φ is supplied: not in a standby mode, where it stops (R450, R453), and its oscillator runs (R518). -/
def State.phiSupplied (s : State) : Bool := decide (s.standby = .run) && s.phiRuns

/-- Periods of Φ in an advance: none while it is not supplied. -/
def State.phiCycles (s : State) (e : Elapsed) : Nat := if s.phiSupplied then e.cycles else 0

/-- Rising edges of bit `j` of the fX divider during `n` fX periods from the value `d`. -/
def divRises (d n j : Nat) : Nat := (d + n + 2 ^ j) / 2 ^ (j + 1) - (d + 2 ^ j) / 2 ^ (j + 1)

/-- The frequency code that CLOM asks for (R521). -/
def ClockGen.pclWanted (c : ClockGen) : Option (BitVec 2) :=
  if c.clom.getLsbD 3 then some (c.clom.extractLsb' 0 2) else none

/-- A full period of the clock `k` starts in the part of an advance that is left after its first `m` fX periods. -/
def State.pclStarts (s : State) (e : Elapsed) (m : Nat) (k : BitVec 2) : Bool :=
  if k = 0 then decide (s.phiCycles e ≠ 0)
  else decide (divRises (s.clk.div.toNat + m) (e.fx - m) (2 * k.toNat - 1) ≠ 0)

/-- The fX periods after which the clock `k` is low, if it is within an advance: 0 if it is low now. -/
def State.pclLow (s : State) (e : Elapsed) (k : BitVec 2) : Option Nat :=
  if s.clk.pclClock k = false then some 0
  else if k = 0 then (if s.phiCycles e = 0 then none else some 0)
  else
    let m := 2 ^ (2 * k.toNat) - s.clk.div.toNat % 2 ^ (2 * k.toNat)
    if m ≤ e.fx then some m else none

/-- The closed gate opens at the next rising start of the wanted clock. -/
def State.pclOpen (s : State) (e : Elapsed) (m : Nat) : Option (BitVec 2) :=
  match s.clk.pclWanted with
  | none => none
  | some k => if s.pclStarts e m k then some k else none

/-- What the PCL gate lets through after an advance (R520): a clock that is no longer wanted passes until its high period
ends, by its own frequency; then the gate is closed until a full period of the wanted clock starts (log 37). -/
def State.pclAfter (s : State) (e : Elapsed) : Option (BitVec 2) :=
  match s.clk.pcl with
  | none => s.pclOpen e 0
  | some k =>
    if s.clk.pclWanted = some k then some k
    else
      match s.pclLow e k with
      | none => some k
      | some m => s.pclOpen e m

/-- The clock output circuit in an advance; Φ stands at a new level only where it ran (log 37). -/
def State.tickPcl (s : State) (e : Elapsed) : State :=
  { s with clk := { s.clk with
      pcl := s.pclAfter e,
      phiHigh := if s.phiCycles e = 0 then s.clk.phiHigh else Config.phiLevel s.freeCount } }

end Sys2Proof.Machine
end

