-- ==== Sys2Proof/Machine/Timers.lean ====
section
/-! DEFINITION. The basic interval timer / watchdog (R530 to R536), the watch timer (R540 to R542) and the two
timer/event counters (R550 to R559): how they count. -/

namespace Sys2Proof.Machine

/-- BTM2-0 selects a count clock fX/2^k (R531); a prohibited code is never stored (U17). -/
def BasicTimer.tap (b : BasicTimer) : Nat :=
  match b.btm.toNat with
  | 0 => 12
  | 3 => 9
  | 5 => 7
  | _ => 5

/-- The BTM2-0 codes of R531. -/
def btmCodeOk (c : BitVec 3) : Bool := c == 0 || c == 3 || c == 5 || c == 7

/-- Set an interrupt request flag of the basic interval timer. -/
def State.raiseBt (s : State) : State := { s with ints := { s.ints with irq := { s.ints.irq with bt := true } } }

/-- BT counts (R532). On overflow: IRQBT if WDTM = 0, the internal reset signal if WDTM = 1, except that the overflow
that ends the wait after STOP never resets (R534, R535) and lets the CPU run (R455, R456): PCC.3 and PCC.2 are cleared
and two instructions run before an interrupt is accepted. -/
def State.advanceBt (s : State) (e : Elapsed) : State :=
  let n := s.bt.count.toNat + divTicks s.clk.div e.fx s.bt.tap
  let s1 := { s with bt := { s.bt with count := BitVec.ofNat 8 n } }
  if n < 256 then s1
  else
    let s2 := if s.bt.wdtm then s1 else s1.raiseBt
    if s.standby = .wait then
      { s2 with standby := .run, clk := { s2.clk with pcc := s2.clk.pcc &&& 0x3 },
                ints := { s2.ints with releaseHold := 2 } }
    else if s.bt.wdtm then { s2 with resetReq := true } else s2

/-- Periods of fW, the watch timer's clock: fX/2^7 or fXT (R541). -/
def State.fwPeriods (s : State) (e : Elapsed) : Nat :=
  if s.watch.wm.getLsbD 0 then e.fxt else divTicks s.clk.div e.fx 7

/-- The watch timer's output periods: fW/2^14, or fW/2^7 in fast mode (R542). -/
def State.watchTicks (s : State) (e : Elapsed) : Nat :=
  let k := if s.watch.wm.getLsbD 1 then 7 else 14
  if s.watch.wm.getLsbD 2 then (s.watch.div.toNat + s.fwPeriods e) / 2 ^ k - s.watch.div.toNat / 2 ^ k else 0

/-- fW runs in an advance: its oscillator runs and time passes (R518, R541). -/
def State.fwRuns (s : State) (e : Elapsed) : Bool :=
  if s.watch.wm.getLsbD 0 then s.fxtRunning && (decide (e.fx ≠ 0) || decide (e.fxt ≠ 0)) else decide (e.fx ≠ 0)

/-- The watch timer counts fW while WM2 = 1 and is held cleared while WM2 = 0; each output period sets IRQW (R542). The
level of BUZ with the prohibited frequency code 10 is a new free one only where fW ran (R518, log 42). -/
def State.advanceWatch (s : State) (e : Elapsed) : State :=
  let d := if s.watch.wm.getLsbD 2 then BitVec.ofNat 14 (s.watch.div.toNat + s.fwPeriods e) else 0
  { s with watch := { s.watch with div := d, buzHigh := if s.fwRuns e then Config.buzLevel s.freeCount else s.watch.buzHigh },
           ints := { s.ints with irq := { s.ints.irq with w := s.ints.irq.w || decide (s.watchTicks e ≠ 0) } } }

/-- Events of a run of count pulses: matches and overflows. -/
structure CountEvents where
  matches_ : Nat
  overflows : Nat
  highMatches : Nat
deriving DecidableEq, Repr

/-- One count pulse in 8-bit mode (R554, D16). -/
def TimerCounter.pulse (t : TimerCounter) (ev : CountEvents) : TimerCounter × CountEvents :=
  if t.count = t.modulo then
    ({ t with count := 0, tout := !t.tout }, { ev with matches_ := ev.matches_ + 1 })
  else
    ({ t with count := t.count + 1 },
      if t.count = 0xFF then { ev with overflows := ev.overflows + 1 } else ev)

/-- `n` count pulses in 8-bit mode. -/
def TimerCounter.pulses : Nat → TimerCounter → CountEvents → TimerCounter × CountEvents
  | 0, t, ev => (t, ev)
  | n + 1, t, ev => TimerCounter.pulses n (t.pulse ev).1 (t.pulse ev).2

/-- One count pulse of the combined 16-bit counter (R557, D16); `highMatches` counts the pulses that find or leave T1
equal to TMOD1 (U22). -/
def pulse16 (lo hi : TimerCounter) (ev : CountEvents) : TimerCounter × TimerCounter × CountEvents :=
  if lo.count = lo.modulo ∧ hi.count = hi.modulo then
    ({ lo with count := 0, tout := !lo.tout }, { hi with count := 0 }, { ev with matches_ := ev.matches_ + 1, highMatches := ev.highMatches + 1 })
  else
    let hi' := if lo.count = 0xFF then { hi with count := hi.count + 1 } else hi
    ({ lo with count := lo.count + 1 }, hi',
      { ev with overflows := if lo.count = 0xFF then ev.overflows + 1 else ev.overflows,
                highMatches := if hi.count = hi.modulo ∨ hi'.count = hi'.modulo then ev.highMatches + 1 else ev.highMatches })

/-- `n` count pulses in 16-bit mode. -/
def pulses16 : Nat → TimerCounter → TimerCounter → CountEvents → TimerCounter × TimerCounter × CountEvents
  | 0, lo, hi, ev => (lo, hi, ev)
  | n + 1, lo, hi, ev =>
    pulses16 n (pulse16 lo hi ev).1 (pulse16 lo hi ev).2.1 (pulse16 lo hi ev).2.2

/-- Edges of the pins that an advance brings: TI0, TI1 and /SCK, rising or falling. -/
structure PinEdges where
  ti0Rise : Bool
  ti0Fall : Bool
  ti1Rise : Bool
  ti1Fall : Bool
  sckRise : Bool
  sckFall : Bool
deriving DecidableEq, Repr

/-- No edge. -/
def PinEdges.none : PinEdges := ⟨false, false, false, false, false, false⟩

/-- One pulse for an edge. -/
def edgePulse (b : Bool) : Nat := if b then 1 else 0

/-- Count pulses of channel 0 (R551). -/
def State.pulses0 (s : State) (e : Elapsed) (pe : PinEdges) : Nat :=
  match s.timer0.cp.toNat with
  | 0 => edgePulse pe.ti0Rise
  | 1 => edgePulse pe.ti0Fall
  | 2 => s.watchTicks e
  | 3 => divTicks s.clk.div e.fx 2
  | 4 => divTicks s.clk.div e.fx 10
  | 5 => divTicks s.clk.div e.fx 8
  | 6 => divTicks s.clk.div e.fx 6
  | _ => divTicks s.clk.div e.fx 4

/-- Count pulses of channel 1, given the overflows of channel 0 (R551). -/
def State.pulses1 (s : State) (e : Elapsed) (pe : PinEdges) (overflows0 : Nat) : Nat :=
  match s.timer1.cp.toNat with
  | 0 => edgePulse pe.ti1Rise
  | 1 => edgePulse pe.ti1Fall
  | 2 => overflows0
  | 3 => divTicks s.clk.div e.fx 2
  | 4 => divTicks s.clk.div e.fx 12
  | 5 => divTicks s.clk.div e.fx 10
  | 6 => divTicks s.clk.div e.fx 8
  | _ => divTicks s.clk.div e.fx 6

/-- The 16-bit timer/event counter mode (R557): TM01,TM00 = 10. -/
def State.mode16 (s : State) : Bool := s.timer0.mode == 2

/-- Set IRQT0 and IRQT1 where the events ask for it. -/
def State.raiseTimers (s : State) (t0 t1 : Bool) : State :=
  { s with ints := { s.ints with irq := { s.ints.irq with t0 := s.ints.irq.t0 || t0, t1 := s.ints.irq.t1 || t1 } } }

/-- The timer/event counters take `n0` count pulses of channel 0 and, in 8-bit mode, `n1` of channel 1, which depend on
the overflows of channel 0 (R554, R557). The second result is the number of changes of TOUT F/F 0, which clocks the serial
interface (R569). -/
def State.countTimers (s : State) (n0 : Nat) (n1 : Nat → Nat) : State × Nat :=
  let z : CountEvents := ⟨0, 0, 0⟩
  if s.mode16 then
    let r := pulses16 n0 s.timer0 s.timer1 z
    (({ s with timer0 := r.1, timer1 := r.2.1 }).raiseTimers (decide (r.2.2.matches_ ≠ 0))
      (decide (r.2.2.highMatches ≠ 0) && Config.irqt1In16 s.freeCount), r.2.2.matches_)
  else
    let r0 := s.timer0.pulses n0 z
    let r1 := s.timer1.pulses (n1 r0.2.overflows) z
    (({ s with timer0 := r0.1, timer1 := r1.1 }).raiseTimers (decide (r0.2.matches_ ≠ 0)) (decide (r1.2.matches_ ≠ 0)),
      r0.2.matches_)

/-- The timer/event counters count while their bit 2 is 1 (R551, R554, R557). -/
def State.advanceTimers (s : State) (e : Elapsed) (pe : PinEdges) : State × Nat :=
  s.countTimers (if s.timer0.run then s.pulses0 e pe else 0) fun o => if s.timer1.run then s.pulses1 e pe o else 0

/-- In an advance the counters as they are would match: channel 0 (the combined counter in 16-bit mode), channel 1. -/
def State.wouldMatch (s : State) (e : Elapsed) (pe : PinEdges) : Bool × Bool :=
  let t := { s with ints := { s.ints with irq := { s.ints.irq with t0 := false, t1 := false } } }
  let r := (t.advanceTimers e pe).1.ints.irq
  (r.t0, r.t1)

end Sys2Proof.Machine
end

