-- ==== Sys2Proof/Machine/Serial.lean ====
section
/-! DEFINITION. The serial interface (66_serial_adc_bsb.md R561 to R569): transfers, the shift register's bit order, and
its clocks. -/

namespace Sys2Proof.Machine

/-- Reverse the bits of a byte. -/
def bitReverse (v : Byte) : Byte :=
  nib (v.getLsbD 0) (v.getLsbD 1) (v.getLsbD 2) (v.getLsbD 3) ++
  nib (v.getLsbD 4) (v.getLsbD 5) (v.getLsbD 6) (v.getLsbD 7)

/-- The bit order of the bus access to SIO (R568): reversed in LSB-first 3-wire mode (CSIM3 = 0, CSIM2 = 1). -/
def Serial.order (u : Serial) (v : Byte) : Byte :=
  if !u.csim.getLsbD 3 && u.csim.getLsbD 2 then bitReverse v else v

/-- CSIE = 0 stops everything (R561, R565). -/
def Serial.gate (u : Serial) : Serial :=
  if u.csie then u else { u with running := false, count := 0, sckLow := false }

/-- A write of SIO (R565): with CSIE = 1 it starts a transfer. -/
def Serial.writeSio (u : Serial) (v : Byte) : Serial :=
  if u.csie then { u with sio := u.order v, running := true, count := 0, sckLow := false }
  else { u with sio := u.order v }

/-- CSIM values that R561 prohibits (U23): a 1 in bits 6, 5, or CSIM3 = 1 with CSIM2 = 0. -/
def csimOk (v : Byte) : Bool := !v.getLsbD 6 && !v.getLsbD 5 && (!v.getLsbD 3 || v.getLsbD 2)

/-- The level on the input pin of the mode (R565, R567): SI in 3-wire mode; the SB0 or SB1 line in 2-wire mode. -/
def Serial.input (u : Serial) (p0 : Nibble) : Bool :=
  if u.twoWire then u.soLatch && (if u.csim.getLsbD 4 then p0.getLsbD 3 else p0.getLsbD 2) else p0.getLsbD 3

/-- A falling edge of the serial clock (R565). -/
def Serial.fall (u : Serial) : Serial :=
  if u.csie && u.running then
    { u with soLatch := u.sio.getLsbD 7, sio := u.sio.extractLsb' 0 7 ++ u.sio.extractLsb' 0 1, sckLow := u.sckOut }
  else u

/-- A rising edge of the serial clock (R565); the second result is IRQCSI. An internal clock's first edge of a transfer
is a falling one: the clock control circuit gives exactly 8 low-going pulses. -/
def Serial.rise (u : Serial) (p0 : Nibble) : Serial × Bool :=
  if u.csie && u.running && (!u.sckOut || u.sckLow) then
    let u1 := { u with sio := u.sio.extractLsb' 1 7 ++ BitVec.ofBool (u.input p0), count := u.count + 1, sckLow := false }
    if u1.count = 8 then ({ u1 with running := false }, true) else (u1, false)
  else (u, false)

/-- `n` changes of an internal clock whose level is `high` before the first (R565). -/
def Serial.clocks (p0 : Nibble) : Nat → Bool → Serial → Serial × Bool
  | 0, _, u => (u, false)
  | n + 1, true, u => Serial.clocks p0 n false (Serial.fall u)
  | n + 1, false, u =>
    let r := u.rise p0
    let r2 := Serial.clocks p0 n true r.1
    (r2.1, r.2 || r2.2)

/-- The divider tap of CSIM1,0 = 10, 11 (R561): fX/2^4, fX/2^3 in 3-wire mode, fX/2^6 in 2-wire mode. -/
def Serial.tap (u : Serial) : Nat :=
  if u.twoWire then 6 else if u.csim.getLsbD 0 then 3 else 4

/-- The serial interface follows its clock (R565): the /SCK pin, TOUT F/F 0 or the fX divider. `tout` is the level of TOUT
F/F 0 before the advance and `toggles` how often it changed. -/
def State.advanceSerial (s : State) (e : Elapsed) (pe : PinEdges) (tout : Bool) (toggles : Nat) : State :=
  let u := s.serial
  let p0 := s.pins.p0
  let r : Serial × Bool :=
    match (u.csim.extractLsb' 0 2).toNat with
    | 0 => if pe.sckFall then (u.fall, false) else if pe.sckRise then u.rise p0 else (u, false)
    | 1 => Serial.clocks p0 toggles tout u
    | _ => Serial.clocks p0 (divTicks s.clk.div e.fx (u.tap - 1)) (s.clk.div.getLsbD (u.tap - 1)) u
  { s with serial := r.1, ints := { s.ints with irq := { s.ints.irq with csi := s.ints.irq.csi || r.2 } } }

end Sys2Proof.Machine
end

