-- ==== Sys2Proof/Machine/Adc.lean ====
section
/-! DEFINITION. The A/D converter (66_serial_adc_bsb.md R571 to R575). -/

namespace Sys2Proof.Machine

/-- Setting SOC (R572, R573): SA becomes undefined, the conversion starts within 2^4/fX; a conversion in progress is
abandoned (U26). -/
def State.startConversion (s : State) : State :=
  { s with adc := { s.adc with pending := some (Config.adcDelay s.freeCount % 17), conv := none, saValid := false } }

/-- The conversion starts (R572): SOC and EOC go to 0, the channel's analogue value is held; with ADEN = 0 the result is
FFH (R573). -/
def State.beginConversion (s : State) : State :=
  let result := if s.adc.aden then s.pins.an.getD s.adc.ch.toNat 0xFF else 0xFF
  { s with adc := { s.adc with pending := none, eoc := false,
                               conv := some { left := 168, result := result, frozen := false } } }

/-- The conversion ends (R572): SA is written and EOC set; a conversion that was frozen gives a free value (U26). -/
def State.endConversion (s : State) (c : Conversion) : State :=
  { s with adc := { s.adc with sa := if c.frozen then Config.adcFrozen s.freeCount else c.result, saValid := true,
                               eoc := true, conv := none } }

/-- `n` fX periods of a conversion in progress. -/
def State.advanceConversion (s : State) (n : Nat) : State :=
  match s.adc.conv with
  | none => s
  | some c =>
    if c.left ≤ n then s.endConversion c
    else { s with adc := { s.adc with conv := some { c with left := c.left - n } } }

/-- The A/D converter runs on fX (R572); while fX is stopped it stands still and its conversion is marked frozen, also
in the STOP mode of no time that a pending release ends at once (DESIGN CHOICE, log 28). -/
def State.advanceAdc (s : State) (e : Elapsed) : State :=
  if s.fxRunning then
    match s.adc.pending with
    | none => s.advanceConversion e.fx
    | some d =>
      if d ≤ e.fx then s.beginConversion.advanceConversion (e.fx - d)
      else { s with adc := { s.adc with pending := some (d - e.fx) } }
  else
    match s.adc.conv with
    | none => s
    | some c => { s with adc := { s.adc with conv := some { c with frozen := true } } }

end Sys2Proof.Machine
end

