-- ==== Sys2Proof/Machine/Edges.lean ====
section
/-! DEFINITION. The edge-detected pins (60_exceptions.md R425 to R429, R444; R591): what the levels the host presents now,
against the levels seen before, do to the request flags and to the pins that clock a device. -/

namespace Sys2Proof.Machine

/-- A rising edge. -/
def rose (before now : Bool) : Bool := !before && now

/-- A falling edge. -/
def fell (before now : Bool) : Bool := before && !now

/-- The edges that IM01, IM00 select for INT0 (R426): 00 rising, 01 falling, 10 both, 11 none. -/
def int0Edge (sel : BitVec 2) (before now : Bool) : Bool :=
  match sel.toNat with
  | 0 => rose before now
  | 1 => fell before now
  | 2 => before != now
  | _ => false

/-- The edge that IM10 selects for INT1 (R427): 0 rising, 1 falling. -/
def int1Edge (im1 : Bool) (before now : Bool) : Bool := if im1 then fell before now else rose before now

/-- What IM2 selects (R428): code 00 the rising edge of INT2; the other codes are the parameter IM2_CODES. -/
def keySel (im2 : BitVec 2) : KeySel := if im2 = 0 then .int2Rising else Config.im2Codes im2

/-- The AND of the selected key pins (R428, caution 2). -/
def keyLevel (k : KeySel) (kr : Nibble) : Bool :=
  match k with
  | .int2Rising => true
  | .kr23Falling => kr.getLsbD 3 && kr.getLsbD 2
  | .kr03Falling => kr == 0xF

/-- The edge that sets IRQ2 (R428). -/
def int2Edge (k : KeySel) (before now : Bool) (krBefore krNow : Nibble) : Bool :=
  match k with
  | .int2Rising => rose before now
  | k => fell (keyLevel k krBefore) (keyLevel k krNow)

/-- The INT0 noise eliminator after `n` samples of the level `now` (R426): its output follows after two consecutive
samples at the new level. -/
def Edges.sample (g : Edges) (now : Bool) (n : Nat) : Edges :=
  if n = 0 then g
  else if now = g.nfOut then { g with nfCount := 0 }
  else if 2 ≤ g.nfCount + n then { g with nfOut := now, nfCount := 0 }
  else { g with nfCount := g.nfCount + n }

/-- Samples that the noise eliminator takes in an advance (R426): none while Φ is not supplied; IM03 = 0 samples with Φ,
IM03 = 1 with fX/64. -/
def State.nfSamples (s : State) (e : Elapsed) : Nat :=
  if s.ints.im0.getLsbD 3 then (if s.phiSupplied then divTicks s.clk.div e.fx 6 else 0) else s.phiCycles e

/-- The noise eliminator advances and, while it is selected, INT0 edges are detected on its output; while it is not, its
output follows the pin (R426, log 50). -/
def State.advanceNoise (s : State) (e : Elapsed) : State :=
  let now := s.pins.p1.getLsbD 0
  if s.int0Filtered then
    let g := s.edges.sample now (s.nfSamples e)
    { s with edges := g,
             ints := { s.ints with irq := { s.ints.irq with
               int0 := s.ints.irq.int0 || int0Edge (s.ints.im0.extractLsb' 0 2) s.edges.nfOut g.nfOut } } }
  else { s with edges := { s.edges with nfOut := now, nfCount := 0 } }

/-- The edges of TI0, TI1 and the external /SCK between the levels seen before and now (R551, R565). -/
def State.pinEdges (s : State) : PinEdges :=
  let p1 := s.pins.p1
  let sck := s.pins.p0.getLsbD 1
  { ti0Rise := rose s.edges.ti0 (p1.getLsbD 3), ti0Fall := fell s.edges.ti0 (p1.getLsbD 3),
    ti1Rise := rose s.edges.ti1 (p1.getLsbD 2), ti1Fall := fell s.edges.ti1 (p1.getLsbD 2),
    sckRise := rose s.edges.sck sck, sckFall := fell s.edges.sck sck }

/-- The asynchronous edge detectors INT1, INT2 / KR, INT4, and INT0 without the eliminator set their flags (R425 to
R429); the levels are remembered. -/
def State.detectEdges (s : State) : State :=
  let p0 := s.pins.p0
  let p1 := s.pins.p1
  let kr := s.pinLevels 6
  let g := s.edges
  let i := s.ints.irq
  { s with
    edges := { g with int0 := p1.getLsbD 0, int1 := p1.getLsbD 1, int2 := p1.getLsbD 2, int4 := p0.getLsbD 0,
                      ti0 := p1.getLsbD 3, ti1 := p1.getLsbD 2, sck := p0.getLsbD 1, kr := kr },
    ints := { s.ints with irq := { i with
      int4 := i.int4 || (g.int4 != p0.getLsbD 0),
      int0 := i.int0 || (!s.int0Filtered && int0Edge (s.ints.im0.extractLsb' 0 2) g.int0 (p1.getLsbD 0)),
      int1 := i.int1 || int1Edge s.ints.im1 g.int1 (p1.getLsbD 1),
      int2 := i.int2 || int2Edge (keySel s.ints.im2) g.int2 (p1.getLsbD 2) g.kr kr } } }

/-- Machine cycles after a write of an edge mode register during which its request flag may be set (R444, U12). -/
def glitchWindow : Nat := 16

/-- A window as the write itself leaves it: the machine cycles of the writing instruction come on top (log 17). -/
def glitchFresh : Nat := glitchWindow + 1

/-- The machine cycles that a window stays open: if it was opened by an instruction of `c` machine cycles, whose own
cycles are still to pass, 16 after them. -/
def openWindow (c w : Nat) : Nat := if w = glitchFresh then glitchWindow + c else w

/-- The windows that an instruction of `c` machine cycles opened. -/
def State.openWindows (s : State) (c : Nat) : State :=
  { s with ints := { s.ints with
      win0 := openWindow c s.ints.win0, win1 := openWindow c s.ints.win1, win2 := openWindow c s.ints.win2 } }

/-- After a write of IM0, IM1 or IM2 the request flag may be set for up to 16 machine cycles (R444, U12). What counts as a
machine cycle in a standby mode the rule does not say: here the quanta of HALT mode and of the waits count, and in STOP mode
the window stays open (DESIGN CHOICE, log 17). -/
def State.modeGlitches (s : State) (e : Elapsed) : State :=
  let i := s.ints
  { s with ints := { i with
      win0 := i.win0 - e.cycles, win1 := i.win1 - e.cycles, win2 := i.win2 - e.cycles,
      irq := { i.irq with
        int0 := i.irq.int0 || (decide (i.win0 ≠ 0) && Config.edgeGlitch s.freeCount 0),
        int1 := i.irq.int1 || (decide (i.win1 ≠ 0) && Config.edgeGlitch s.freeCount 1),
        int2 := i.irq.int2 || (decide (i.win2 ≠ 0) && Config.edgeGlitch s.freeCount 2) } } }

end Sys2Proof.Machine
end

