-- ==== Sys2Proof/Machine/Io.lean ====
section
/-! DEFINITION. The peripheral registers of bank 15 (10_state.md R42): what a 4-bit, 8-bit or 1-bit read returns and what
a write does. A read of a width or direction the I/O map does not allow is a free value, such a write is discarded
(R96, R98, U6, U7, logs 7, 8). -/

namespace Sys2Proof.Machine

/-- What an operation answers. -/
abbrev Result := Host.Outcome State Fault Refusal

/-- Go on with the next state; stop where the first part stops. -/
def andThen (o : Result) (f : State → Result) : Result :=
  match o with
  | .next s => f s
  | .fault r => .fault r
  | .refused r => .refused r

/-- UNMAPPED_READ (D5): a free nibble for this step and address. -/
def State.free4 (s : State) (a : DAddr) : Nibble := Config.unmappedRead s.freeCount a

/-- Free values for both nibbles of an 8-bit access. -/
def State.free8 (s : State) (a : DAddr) : Byte := s.free4 (a + 1) ++ s.free4 a

/-- SK2, SK1, SK0 for the hidden skip state (R31, D3). -/
def State.skipFlags (s : State) : BitVec 3 :=
  match s.stacked with
  | .none => 0#2 ++ BitVec.ofBool s.addsNoskip
  | .groupA => 1#2 ++ BitVec.ofBool s.addsNoskip
  | .groupB => 2#2 ++ BitVec.ofBool s.addsNoskip

/-- PSWL: IST1, IST0, MBE, RBE (R29). -/
def State.pswLow (s : State) : Nibble := s.ist ++ BitVec.ofBool s.mbe ++ BitVec.ofBool s.rbe

/-- PSWH: CY, SK2, SK1, SK0 (R29, D2). -/
def State.pswHigh (s : State) : Nibble := BitVec.ofBool s.cy ++ s.skipFlags

/-- The request and enable flags at FB8H to FBFH (R40); bits without a flag read as free values (U6). -/
def State.readFlags (s : State) (a : DAddr) : Nibble :=
  let q := s.ints.irq
  let e := s.ints.ie
  let u := s.free4 a
  match a.toNat with
  | 0xFB8 => nib e.int4 q.int4 e.bt q.bt
  | 0xFBA => nib (u.getLsbD 3) (u.getLsbD 2) e.w q.w
  | 0xFBC => nib e.t1 q.t1 e.t0 q.t0
  | 0xFBD => nib (u.getLsbD 3) (u.getLsbD 2) e.csi q.csi
  | 0xFBE => nib e.int1 q.int1 e.int0 q.int0
  | _ => nib (u.getLsbD 3) (u.getLsbD 2) e.int2 q.int2

/-- A 4-bit read of a bank 15 address (R42). -/
def State.ioRead4 (s : State) (a : DAddr) : Nibble :=
  match a.toNat with
  | 0xF82 => 0#2 ++ s.rbs
  | 0xF83 => s.mbs
  | 0xF84 => s.sbs
  | 0xFB0 => s.pswLow
  | 0xFB2 => BitVec.ofBool s.ints.ime ++ s.ints.ips
  | 0xFB3 => s.clk.pcc
  | 0xFB4 => s.ints.im0
  | 0xFB5 => 0#3 ++ BitVec.ofBool s.ints.im1
  | 0xFB6 => 0#2 ++ s.ints.im2
  | 0xFB7 => nib s.clk.scc3 ((s.free4 a).getLsbD 2) ((s.free4 a).getLsbD 1) s.clk.scc0
  | 0xFB8 | 0xFBA | 0xFBC | 0xFBD | 0xFBE | 0xFBF => s.readFlags a
  | 0xFC0 => s.bsb0
  | 0xFC1 => s.bsb1
  | 0xFC2 => s.bsb2
  | 0xFC3 => s.bsb3
  | 0xFCF => 0#2 ++ s.clk.sos
  | 0xFD0 => s.clk.clom
  | 0xFF0 => s.readPort 0
  | 0xFF1 => s.readPort 1
  | 0xFF2 => s.readPort 2
  | 0xFF3 => s.readPort 3
  | 0xFF4 => s.readPort 4
  | 0xFF5 => s.readPort 5
  | 0xFF6 => s.readPort 6
  | 0xFFB => s.readPort 11
  | _ => s.free4 a

/-- The time of the instruction in execution up to the end of its own two machine cycles: what it has spent (GETI spends
one before its entry runs) and those two. Every instruction that can read BT or start a timer takes two. -/
def State.ownTime (s : State) : Elapsed := s.elapsed (s.cycles - s.startedAt + 2)

/-- A read of BT (R536): where a count clock edge falls within the reading instruction, the value may be unstable (U18,
log 25). -/
def State.readBt (s : State) : Byte :=
  if divTicks s.clk.div s.ownTime.fx s.bt.tap = 0 then s.bt.count
  else (Config.btUnstable s.freeCount).getD s.bt.count

/-- TMn as read (R551): bit 7 is free, bit 3 reads 0 (R552). -/
def TimerCounter.read (t : TimerCounter) (b7 : Bool) : Byte :=
  BitVec.ofBool b7 ++ t.cp ++ 0#1 ++ BitVec.ofBool t.run ++ t.mode

/-- ADM as read (R571): ADEN, ADM6-4, SOC, EOC, 0, 0. -/
def Adc.read (c : Adc) : Byte :=
  BitVec.ofBool c.aden ++ c.ch ++ BitVec.ofBool c.pending.isSome ++ BitVec.ofBool c.eoc ++ 0#2

/-- An 8-bit read at an even bank 15 address (R42). -/
def State.ioRead8 (s : State) (a : DAddr) : Byte :=
  let u := s.free8 a
  match a.toNat with
  | 0xF80 => s.sp
  | 0xF82 => s.mbs ++ (0#2 ++ s.rbs)
  | 0xF86 => s.readBt
  | 0xF98 => nib (s.watch.wm.getLsbD 7) false (s.watch.wm.getLsbD 5) (s.watch.wm.getLsbD 4) ++
             nib s.pins.xt1 (s.watch.wm.getLsbD 2) (s.watch.wm.getLsbD 1) (s.watch.wm.getLsbD 0)
  | 0xFA0 => s.timer0.read (u.getLsbD 7)
  | 0xFA4 => s.timer0.count
  | 0xFA6 => s.timer0.modulo
  | 0xFA8 => s.timer1.read (u.getLsbD 7)
  | 0xFAC => s.timer1.count
  | 0xFAE => s.timer1.modulo
  | 0xFB0 => s.pswHigh ++ s.pswLow
  | 0xFC0 => s.bsb1 ++ s.bsb0
  | 0xFC2 => s.bsb3 ++ s.bsb2
  | 0xFD8 => s.adc.read
  | 0xFDA => if s.adc.saValid then s.adc.sa else Config.adcUnspecified s.freeCount
  | 0xFDC => (s.ports.poga &&& 0x4F) ||| (u &&& 0xB0)
  | 0xFE4 => s.serial.order s.serial.sio
  | 0xFE8 => s.ports.pmga
  | 0xFEC => nib (u.getLsbD 7) (u.getLsbD 6) s.ports.pm5 s.ports.pm4 ++
             nib (u.getLsbD 3) s.ports.pm2 (u.getLsbD 1) (u.getLsbD 0)
  | 0xFF4 => s.readPort 5 ++ s.readPort 4
  | _ => u

/-- A 1-bit read at a bank 15 address (R42): the bits that can be read alone; any other is free. So are the bits
of FB1H (CY, SK2 to SK0): the map refers to R29, which says nothing of such a read (DESIGN CHOICE, log 8). -/
def State.ioReadBit (s : State) (a : DAddr) (b : BitVec 2) : Bool :=
  match a.toNat with
  | 0xF98 => if b = 3 then s.pins.xt1 else nibBit (s.free4 a) b
  | 0xFB7 => nibBit (nib s.clk.scc3 ((s.free4 a).getLsbD 2) ((s.free4 a).getLsbD 1) s.clk.scc0) b
  | 0xFD8 => if b = 2 then s.adc.eoc else nibBit (s.free4 a) b
  | 0xFB0 | 0xFB8 | 0xFBA | 0xFBC | 0xFBD | 0xFBE | 0xFBF | 0xFC0 | 0xFC1 | 0xFC2 | 0xFC3
  | 0xFF0 | 0xFF1 | 0xFF2 | 0xFF3 | 0xFF4 | 0xFF5 | 0xFF6 | 0xFFB => nibBit (s.ioRead4 a) b
  | _ => nibBit (s.free4 a) b

/-- Write the PSW bits at FB0H (R29): IST1, IST0, MBE, RBE. -/
def State.writePswLow (s : State) (v : Nibble) : State :=
  { s with ist := v.extractLsb' 2 2, mbe := v.getLsbD 1, rbe := v.getLsbD 0 }

/-- Write of BTM (R531): the count clock, and with bit 3 the start that clears BT and IRQBT. -/
def State.restartBt (s : State) : State :=
  { s with bt := { s.bt with count := 0 }, ints := { s.ints with irq := { s.ints.irq with bt := false } } }

/-- A 4-bit write of BTM (R531); a prohibited code is refused (U17). -/
def State.writeBtm (s : State) (v : Nibble) : Result :=
  let c : BitVec 3 := v.extractLsb' 0 3
  if btmCodeOk c then
    let s := { s with bt := { s.bt with btm := c } }
    .next (if v.getLsbD 3 then s.restartBt else s)
  else .refused .btmCode

/-- Setting PCC bit 3 (STOP, R451): only on the main system clock (U14). R451 says "operating with the main system clock"
and names SCC.0; the model refuses it also while a change back from the subsystem clock is pending, SCC.0 = 0 with the CPU
clock still fXT/4 (R515; DESIGN CHOICE, log 51). -/
def State.enterStop (s : State) : Result :=
  if s.clk.scc0 || s.clk.phi.sub then .refused .stopOnSubclock
  else .next { s with standby := .stop, clk := { s.clk with pcc := s.clk.pcc ||| 0x8 } }

/-- Setting PCC bit 2 (HALT, R451). -/
def State.enterHalt (s : State) : State :=
  { s with standby := .halt, clk := { s.clk with pcc := s.clk.pcc ||| 0x4 } }

/-- A 4-bit write of PCC (R512): the CPU clock selection; exactly one of bits 3 and 2 sets a standby mode. -/
def State.writePcc (s : State) (v : Nibble) : Result :=
  let s := { s with clk := { s.clk with pcc := v &&& 0x3 } }
  if v.getLsbD 3 && !v.getLsbD 2 then s.enterStop
  else .next (if v.getLsbD 2 && !v.getLsbD 3 then s.enterHalt else s)

/-- A write of the request and enable flags at FB8H to FBFH (R40), one value for each of bits 3 to 0. -/
def State.writeFlags (s : State) (a : DAddr) (v : Nibble) : State :=
  let q := s.ints.irq
  let e := s.ints.ie
  let b3 := v.getLsbD 3
  let b2 := v.getLsbD 2
  let b1 := v.getLsbD 1
  let b0 := v.getLsbD 0
  match a.toNat with
  | 0xFB8 => { s with ints := { s.ints with irq := { q with int4 := b2, bt := b0 }, ie := { e with int4 := b3, bt := b1 } } }
  | 0xFBA => { s with ints := { s.ints with irq := { q with w := b0 }, ie := { e with w := b1 } } }
  | 0xFBC => { s with ints := { s.ints with irq := { q with t1 := b2, t0 := b0 }, ie := { e with t1 := b3, t0 := b1 } } }
  | 0xFBD => { s with ints := { s.ints with irq := { q with csi := b0 }, ie := { e with csi := b1 } } }
  | 0xFBE => { s with ints := { s.ints with irq := { q with int1 := b2, int0 := b0 }, ie := { e with int1 := b3, int0 := b1 } } }
  | _ => { s with ints := { s.ints with irq := { q with int2 := b0 }, ie := { e with int2 := b1 } } }

/-- A 4-bit write at a bank 15 address (R42). -/
def State.ioWrite4 (s : State) (a : DAddr) (v : Nibble) : Result :=
  match a.toNat with
  | 0xF84 => .next { s with sbs := v }
  | 0xF85 => s.writeBtm v
  | 0xFB0 => .next (s.writePswLow v)
  | 0xFB2 => .next { s with ints := { s.ints with ime := v.getLsbD 3, ips := v.extractLsb' 0 3 } }
  | 0xFB3 => s.writePcc v
  | 0xFB4 => .next { s with ints := { s.ints with im0 := v, win0 := glitchFresh } }
  | 0xFB5 => .next { s with ints := { s.ints with im1 := v.getLsbD 0, win1 := glitchFresh } }
  | 0xFB6 => .next { s with ints := { s.ints with im2 := v.extractLsb' 0 2, win2 := glitchFresh } }
  | 0xFB8 | 0xFBA | 0xFBC | 0xFBD | 0xFBE | 0xFBF => .next (s.writeFlags a v)
  | 0xFC0 => .next { s with bsb0 := v }
  | 0xFC1 => .next { s with bsb1 := v }
  | 0xFC2 => .next { s with bsb2 := v }
  | 0xFC3 => .next { s with bsb3 := v }
  | 0xFCF => .next { s with clk := { s.clk with sos := v.extractLsb' 0 2 } }
  | 0xFD0 => .next { s with clk := { s.clk with clom := v &&& 0xB } }
  | 0xFF2 => .next (s.setLatch 2 v)
  | 0xFF3 => .next (s.setLatch 3 v)
  | 0xFF4 => .next (s.setLatch 4 v)
  | 0xFF5 => .next (s.setLatch 5 v)
  | 0xFF6 => .next (s.setLatch 6 v)
  | _ => .next s

/-- A match of channel 0 (of the combined counter in 16-bit mode), of channel 1, that the counters as they stand reach
within the instruction in execution (R552, R590). -/
def State.coincidence (s : State) : Bool × Bool := s.wouldMatch s.ownTime s.pinEdges

/-- The timer start of channel 0 (R552, R557): T0 (with `both`, the 16-bit mode, also T1), IRQT0 and TOUT F/F 0 are
cleared. A match that coincides with the start may leave IRQT0 set (U20, log 26). A TOUT F/F 0 that falls is a falling edge
of the serial clock TO0 (R569). -/
def State.startTimer0 (s : State) (both : Bool) : State :=
  { s with timer0 := { s.timer0 with count := 0, tout := false },
           timer1 := if both then { s.timer1 with count := 0 } else s.timer1,
           serial := if s.timer0.tout && s.serial.csim.extractLsb' 0 2 == 1#2 then s.serial.fall else s.serial,
           ints := { s.ints with irq := { s.ints.irq with
             t0 := s.coincidence.1 && Config.startCoincidence s.freeCount 0 } } }

/-- The timer start of channel 1 in 8-bit mode (R552). -/
def State.startTimer1 (s : State) : State :=
  { s with timer1 := { s.timer1 with count := 0, tout := false },
           ints := { s.ints with irq := { s.ints.irq with
             t1 := s.coincidence.2 && Config.startCoincidence s.freeCount 1 } } }

/-- The selection fields of a write of TMn (R551). -/
def TimerCounter.select (t : TimerCounter) (v : Byte) : TimerCounter :=
  { t with cp := v.extractLsb' 4 3, run := v.getLsbD 2, mode := v.extractLsb' 0 2 }

/-- A write of TMn changes the count pulse of a counting timer without a restart (R559 (4)). -/
def TimerCounter.disturbed (t : TimerCounter) (v : Byte) : Bool :=
  (t.run || v.getLsbD 2) && !v.getLsbD 3 && t.cp != v.extractLsb' 4 3

/-- The contents of Tn after such a change (R559 (4)): destroyed, or as before. -/
def TimerCounter.destroyed (t : TimerCounter) (key n : Nat) : TimerCounter :=
  { t with count := (Config.timerDestroyed key n).getD t.count }

/-- A change of the count pulse of channel 0 without a restart (R559 (4), log 26): T0 (in 16-bit mode also T1) may be
destroyed and a glitch may count, with all that a count pulse does. Where the same write changes the mode too, the one that
is written decides whether T1 is affected, on which the spec is silent (DESIGN CHOICE, log 26). -/
def State.disturbTimer0 (s : State) : State :=
  let s1 := { s with timer0 := s.timer0.destroyed s.freeCount 0,
                     timer1 := if s.mode16 then s.timer1.destroyed s.freeCount 1 else s.timer1 }
  if Config.glitchPulse s.freeCount 0 then
    let r := s1.countTimers 1 fun o => if s1.timer1.run && s1.timer1.cp == 2#3 then o else 0
    r.1.advanceSerial { cycles := 0, fx := 0, fxt := 0 } PinEdges.none s1.timer0.tout r.2
  else s1

/-- A change of the count pulse of channel 1 without a restart (R559 (4), log 26). -/
def State.disturbTimer1 (s : State) : State :=
  let s1 := { s with timer1 := s.timer1.destroyed s.freeCount 1 }
  if Config.glitchPulse s.freeCount 1 then (s1.countTimers 0 fun _ => 1).1 else s1

/-- An 8-bit write of TM0 (R551, R552); prohibited modes are refused (U19). Whether a start clears T1 too is decided by the
mode that is written, not by the one it leaves (R552, R557; DESIGN CHOICE, log 26). -/
def State.writeTm0 (s : State) (v : Byte) : Result :=
  let mode : BitVec 2 := v.extractLsb' 0 2
  if mode == 0 || (mode == 2 && s.timer1.read false == 0x22) then
    let s1 := if v.getLsbD 3 then s.startTimer0 (mode == 2) else s
    let s2 := { s1 with timer0 := s1.timer0.select v }
    .next (if s.timer0.disturbed v then s2.disturbTimer0 else s2)
  else .refused .timerMode

/-- An 8-bit write of TM1 (R551, R552): in 16-bit mode only 22H (R557, U19). -/
def State.writeTm1 (s : State) (v : Byte) : Result :=
  let mode : BitVec 2 := v.extractLsb' 0 2
  if v &&& 0x7F == 0x22 || (mode == 0 && !s.mode16) then
    let s1 := if v.getLsbD 3 then s.startTimer1 else s
    let s2 := { s1 with timer1 := s1.timer1.select v }
    .next (if s.timer1.disturbed v then s2.disturbTimer1 else s2)
  else .refused .timerMode

/-- An 8-bit write of ADM (R571): ADEN, the channel, and SOC starts a conversion. What a 0 written to SOC does while a start
is still pending the spec does not say: here it does nothing, the start stays pending and SOC reads 1 (DESIGN CHOICE,
log 28). -/
def State.writeAdm (s : State) (v : Byte) : State :=
  let s := { s with adc := { s.adc with aden := v.getLsbD 7, ch := v.extractLsb' 4 3 } }
  if v.getLsbD 3 then s.startConversion else s

/-- An 8-bit write at an even bank 15 address (R42). -/
def State.ioWrite8 (s : State) (a : DAddr) (v : Byte) : Result :=
  match a.toNat with
  | 0xF80 => .next { s with sp := v &&& 0xFE }
  | 0xF98 => .next { s with watch := { s.watch with wm := v &&& 0xB7, div := if v.getLsbD 2 then s.watch.div else 0 } }
  | 0xFA0 => s.writeTm0 v
  | 0xFA6 => .next { s with timer0 := { s.timer0 with modulo := v } }
  | 0xFA8 => s.writeTm1 v
  | 0xFAE => .next { s with timer1 := { s.timer1 with modulo := v } }
  | 0xFC0 => .next { s with bsb0 := v.extractLsb' 0 4, bsb1 := v.extractLsb' 4 4 }
  | 0xFC2 => .next { s with bsb2 := v.extractLsb' 0 4, bsb3 := v.extractLsb' 4 4 }
  | 0xFD8 => .next (s.writeAdm v)
  | 0xFDC => .next { s with ports := { s.ports with poga := v &&& 0x4F } }
  | 0xFE0 => if csimOk v then .next { s with serial := { s.serial with csim := v }.gate } else .refused .csimCode
  | 0xFE4 => .next { s with serial := s.serial.writeSio v }
  | 0xFE8 => .next { s with ports := { s.ports with pmga := v } }
  | 0xFEC => .next { s with ports := { s.ports with pm2 := v.getLsbD 2, pm4 := v.getLsbD 4, pm5 := v.getLsbD 5 } }
  | 0xFF4 => .next ((s.setLatch 4 (v.extractLsb' 0 4)).setLatch 5 (v.extractLsb' 4 4))
  | _ => .next s

/-- Start bit of TM1 written alone (R552); in 16-bit mode TM1 may hold 22H only (U19). -/
def State.writeTm1Start (s : State) : Result :=
  if s.timer1.mode == 0 && !s.mode16 then .next s.startTimer1 else .refused .timerMode

/-- SCC.3 (R513): stopping the main oscillation is refused while the CPU runs on it (U16). -/
def State.writeScc3 (s : State) (v : Bool) : Result :=
  if v && !s.clk.phi.sub then .refused .mainStopOnMain else .next { s with clk := { s.clk with scc3 := v } }

/-- A 1-bit write at a bank 15 address (R42): the bits that can be written alone; a write of another bit is
discarded (log 8). So is one of IME (FB2H bit 3), which only EI and DI operate on alone, and of PCC bits 3 and 2 (FB3H),
which only STOP and HALT do (R39, R42, R98; U7, log 8). -/
def State.ioWriteBit (s : State) (a : DAddr) (b : BitVec 2) (v : Bool) : Result :=
  match a.toNat with
  | 0xF85 => .next (if b = 3 ∧ v then s.restartBt else s)
  | 0xF8B => .next (if b = 3 ∧ v then { s with bt := { s.bt with wdtm := true } } else s)
  | 0xFA0 => .next (if b = 3 ∧ v then s.startTimer0 s.mode16 else s)
  | 0xFA2 => .next (if b = 3 then { s with timer0 := { s.timer0 with toe := v } } else s)
  | 0xFA8 => if b = 3 ∧ v then s.writeTm1Start else .next s
  | 0xFAA => .next (if b = 3 then { s with timer1 := { s.timer1 with toe := v } } else s)
  | 0xFB0 => .next (s.writePswLow (nibSet s.pswLow b v))
  | 0xFB7 =>
    if b = 3 then s.writeScc3 v else .next (if b = 0 then { s with clk := { s.clk with scc0 := v } } else s)
  | 0xFB8 | 0xFBA | 0xFBC | 0xFBD | 0xFBE | 0xFBF => .next (s.writeFlags a (nibSet (s.readFlags a) b v))
  | 0xFC0 => .next { s with bsb0 := nibSet s.bsb0 b v }
  | 0xFC1 => .next { s with bsb1 := nibSet s.bsb1 b v }
  | 0xFC2 => .next { s with bsb2 := nibSet s.bsb2 b v }
  | 0xFC3 => .next { s with bsb3 := nibSet s.bsb3 b v }
  | 0xFD8 => .next (if b = 3 ∧ v then s.startConversion else s)
  | 0xFD9 => .next (if b = 3 then { s with adc := { s.adc with aden := v } } else s)
  | 0xFE1 =>
    .next (if b = 3 then { s with serial := { s.serial with csim := (s.serial.csim &&& 0x7F) ||| (BitVec.ofBool v ++ 0#7) }.gate }
           else s)
  | 0xFE2 =>
    .next (if b = 1 ∧ v then { s with serial := { s.serial with soLatch := false } }
           else if b = 0 ∧ v then { s with serial := { s.serial with soLatch := true } } else s)
  | 0xFF0 => .next (if b = 1 ∧ s.serial.csie then { s with serial := { s.serial with p01 := v } } else s)
  | 0xFF2 => .next (s.setLatch 2 (s.latchAfterBit 2 b v))
  | 0xFF3 => .next (s.setLatch 3 (s.latchAfterBit 3 b v))
  | 0xFF4 => .next (s.setLatch 4 (s.latchAfterBit 4 b v))
  | 0xFF5 => .next (s.setLatch 5 (s.latchAfterBit 5 b v))
  | 0xFF6 => .next (s.setLatch 6 (s.latchAfterBit 6 b v))
  | _ => .next s

end Sys2Proof.Machine
end

