-- ==== Sys2Proof/Machine/Ops.lean ====
section
/-! DEFINITION. The named operations every meaning is written in: data memory (R80, R95, R96), the general registers
(R21 to R23), the stack (R91, R350, R351), the end of an instruction and the skip (R128 to R130), and taking an
interrupt and returning from it (R434 to R437, R357). -/

namespace Sys2Proof.Machine

/-! ### Data memory -/

/-- RAM is built in at an address (R80). -/
def isRam (a : DAddr) : Bool := decide (a.toNat < ramSize)

/-- The peripheral area F80H-FFFH (R80). -/
def isIo (a : DAddr) : Bool := decide (0xF80 ≤ a.toNat)

/-- The stored word of data memory. -/
def State.ramRead (s : State) (a : DAddr) : Nibble := cellRead ramDefault s.ram a.toNat

/-- Store a word of data memory; where no RAM is built in the write is lost (R96). -/
def State.ramWrite (s : State) (a : DAddr) (v : Nibble) : State :=
  if isRam a then { s with ram := cellWrite ramDefault s.ram a.toNat v } else s

/-- `DMemRead(a, 4)` (R95, R96). -/
def State.read4 (s : State) (a : DAddr) : Nibble :=
  if isRam a then s.ramRead a else if isIo a then s.ioRead4 a else s.free4 a

/-- `DMemRead(a, 8)` at an even address, one access (R86, R92, R97). -/
def State.read8 (s : State) (a : DAddr) : Byte :=
  if isRam a then s.ramRead (a + 1) ++ s.ramRead a else if isIo a then s.ioRead8 a else s.free8 a

/-- `DMemRead(a, 1, b)`. -/
def State.readBit (s : State) (a : DAddr) (b : BitVec 2) : Bool :=
  if isRam a then nibBit (s.ramRead a) b else if isIo a then s.ioReadBit a b else nibBit (s.free4 a) b

/-- `DMemWrite(a, 4, v)` (R95, R96). -/
def State.write4 (s : State) (a : DAddr) (v : Nibble) : Result :=
  if isIo a then s.ioWrite4 a v else .next (s.ramWrite a v)

/-- `DMemWrite(a, 8, v)` at an even address: low nibble at `a`, high nibble at `a + 1` (R92). -/
def State.write8 (s : State) (a : DAddr) (v : Byte) : Result :=
  if isIo a then s.ioWrite8 a v
  else .next ((s.ramWrite a (v.extractLsb' 0 4)).ramWrite (a + 1) (v.extractLsb' 4 4))

/-- `DMemWrite(a, 1, b, v)`: only the addressed bit changes (R97). -/
def State.writeBit (s : State) (a : DAddr) (b : BitVec 2) (v : Bool) : Result :=
  if isIo a then s.ioWriteBit a b v else .next (s.ramWrite a (nibSet (s.ramRead a) b v))

/-- An operand at FB0H-FBFH makes the instruction an interrupt control instruction (R435, D13). -/
def State.touch (s : State) (a : DAddr) : State :=
  { s with ints := { s.ints with holdoff := s.ints.holdoff || (decide (0xFB0 ≤ a.toNat) && decide (a.toNat ≤ 0xFBF)) } }

/-! ### General registers -/

/-- RB = RBE·RBS (R22). -/
def State.regBank (s : State) : BitVec 2 := if s.rbe then s.rbs else 0

/-- Data memory address of a register of a bank (R21): 8·bank + code. -/
def regAddr (bank : BitVec 2) (r : Reg) : DAddr := 0#7 ++ bank ++ r.code

/-- `reg[r]` (R22). -/
def State.getReg (s : State) (r : Reg) : Nibble := s.ramRead (regAddr s.regBank r)

/-- `reg[r] <- v`. -/
def State.setReg (s : State) (r : Reg) (v : Nibble) : State := s.ramWrite (regAddr s.regBank r) v

/-- High and low register of a pair (R23). -/
def rpRegs : Rp → Reg × Reg
  | .xa => (.x, .a)
  | .hl => (.h, .l)
  | .de => (.d, .e)
  | .bc => (.b, .c)

/-- `pair[p]` in a bank: high register in bits 7-4. -/
def State.getPairIn (s : State) (bank : BitVec 2) (p : Rp) : Byte :=
  s.ramRead (regAddr bank (rpRegs p).1) ++ s.ramRead (regAddr bank (rpRegs p).2)

/-- `pair[p] <- v` in a bank. -/
def State.setPairIn (s : State) (bank : BitVec 2) (p : Rp) (v : Byte) : State :=
  (s.ramWrite (regAddr bank (rpRegs p).1) (v.extractLsb' 4 4)).ramWrite (regAddr bank (rpRegs p).2) (v.extractLsb' 0 4)

/-- `pair[p]` of the current bank. -/
def State.getPair (s : State) (p : Rp) : Byte := s.getPairIn s.regBank p

/-- `pair[p] <- v` in the current bank. -/
def State.setPair (s : State) (p : Rp) (v : Byte) : State := s.setPairIn s.regBank p v

/-- A pair of the rp' class is a pair of the current bank or of its partner, bank RB xor 1 (R23). -/
def rpPair : RpP → Rp × Bool
  | .xa => (.xa, false)
  | .xa' => (.xa, true)
  | .hl => (.hl, false)
  | .hl' => (.hl, true)
  | .de => (.de, false)
  | .de' => (.de, true)
  | .bc => (.bc, false)
  | .bc' => (.bc, true)

/-- The bank of a pair of the rp' class. -/
def State.pairBank (s : State) (p : RpP) : BitVec 2 := if (rpPair p).2 then s.regBank ^^^ 1#2 else s.regBank

/-- `pair[rp']`. -/
def State.getRpP (s : State) (p : RpP) : Byte := s.getPairIn (s.pairBank p) (rpPair p).1

/-- `pair[rp'] <- v`. -/
def State.setRpP (s : State) (p : RpP) (v : Byte) : State := s.setPairIn (s.pairBank p) (rpPair p).1 v

/-! ### End of an instruction, skip -/

/-- The end of an instruction of `c` machine cycles: the hidden skip state is cleared (R129, R130). -/
def State.ended (s : State) (c : Nat) : State :=
  { s with cycles := s.cycles + c, stacked := .none, addsNoskip := false }

/-- The instruction ends and execution goes on. -/
def State.finish (s : State) (c : Nat) : Result := .next (s.ended c)

/-- `pc <- t`, modulo 2^PCW (D1, D11). -/
def State.setPc (s : State) (t : Nat) : State := { s with pc := s.truncPc t }

/-- Pass over the instruction at `pc` (R128): its length is that of its first byte; S is 2 cycles for a three-byte
instruction, 1 otherwise. -/
def State.skipNext (s : State) : Result :=
  match s.romByte s.pc.toNat with
  | none => .fault (.beyondRom (s.romAddr s.pc.toNat))
  | some b =>
    match lengthOf b with
    | none => .refused (.unassignedSkip b)
    | some n => .next { s.setPc (s.pc.toNat + n) with cycles := s.cycles + (if n = 3 then 2 else 1) }

/-- The end of an instruction that skips when `cond` holds (R128). -/
def State.finishSkip (s : State) (c : Nat) (cond : Bool) : Result :=
  if cond then (s.ended c).skipNext else s.finish c

/-- The end of `ADDC A,@HL` and `SUBC A,@HL` (R130): a following `ADDS A,#n4` is skipped if `cond`, else it runs with its
skip disabled. The byte that follows is read as `ROM[pc]`, so beyond the ROM the machine stops (R11, R82). -/
def State.finishRadix (s : State) (c : Nat) (cond : Bool) : Result :=
  match s.romByte s.pc.toNat with
  | none => .fault (.beyondRom (s.romAddr s.pc.toNat))
  | some b =>
    if b.extractLsb' 4 4 = 6#4 then
      if cond then (s.ended c).skipNext else .next { s.ended c with addsNoskip := true }
    else s.finish c

/-! ### Stack -/

/-- `Stk[k]`: the address `SBS[1:0] ++ ((SP + k) mod 256)` (R91). -/
def State.stkAddr (s : State) (k : BitVec 8) : DAddr := 0#2 ++ s.sbs.extractLsb' 0 2 ++ (s.sp + k)

/-- The nibble at `Stk[k]`; banks 2 and 3 have no memory (U4). -/
def State.stk (s : State) (k : BitVec 8) : Nibble :=
  if isRam (s.stkAddr k) then s.ramRead (s.stkAddr k) else s.free4 (s.stkAddr k)

/-- `Stk[k] <- v`. -/
def State.setStk (s : State) (k : BitVec 8) (v : Nibble) : State := s.ramWrite (s.stkAddr k) v

/-- `SP <- SP + k`; bit 0 is fixed to 0 (R36). -/
def State.moveSp (s : State) (k : BitVec 8) : State := { s with sp := (s.sp + k) &&& 0xFE }

/-- SBS.3 = 1 (R33). -/
def State.mkI (s : State) : Bool := s.sbs.getLsbD 3

/-- MBE, RBE, PC13, PC12: the mixed nibble of a Mk I frame (R350). -/
def State.flagNibble (s : State) (ret : BitVec 14) : Nibble :=
  BitVec.ofBool s.mbe ++ BitVec.ofBool s.rbe ++ ret.extractLsb' 12 2

/-- `save_MkI` (R350). -/
def State.saveMkI (s : State) (ret : BitVec 14) : State :=
  ((((s.setStk (-1) (ret.extractLsb' 4 4)).setStk (-2) (ret.extractLsb' 0 4)).setStk (-3) (s.flagNibble ret)).setStk (-4)
    (ret.extractLsb' 8 4)).moveSp (-4)

/-- `save_MkII` (R351): the nibble at the old SP-1 and the x bits at the old SP-2 are undefined (U8, log 12). -/
def State.saveMkII (s : State) (ret : BitVec 14) : State :=
  let x := (Config.frameFree s.freeCount 1).extractLsb' 2 2
  ((((((s.setStk (-1) (Config.frameFree s.freeCount 0)).setStk (-2)
    (x ++ BitVec.ofBool s.mbe ++ BitVec.ofBool s.rbe)).setStk (-3) (ret.extractLsb' 4 4)).setStk (-4)
    (ret.extractLsb' 0 4)).setStk (-5) (0#2 ++ ret.extractLsb' 12 2)).setStk (-6) (ret.extractLsb' 8 4)).moveSp (-6)

/-- The frame of a call in the mode in force (R352, R354). -/
def State.saveFrame (s : State) (ret : BitVec 14) : State := if s.mkI then s.saveMkI ret else s.saveMkII ret

/-- The return address in the frame at SP (R350, R351); PC bits that do not exist are dropped. -/
def State.frameReturn (s : State) : Nat :=
  ((s.stk 1).extractLsb' 0 2 ++ s.stk 0 ++ s.stk 3 ++ s.stk 2 : BitVec 14).toNat

/-- `restore_MkI` and `restore_MkII` (R350, R351). -/
def State.restoreFrame (s : State) : State :=
  if s.mkI then
    { (s.setPc s.frameReturn).moveSp 4 with mbe := (s.stk 1).getLsbD 3, rbe := (s.stk 1).getLsbD 2 }
  else
    { (s.setPc s.frameReturn).moveSp 6 with mbe := (s.stk 4).getLsbD 1, rbe := (s.stk 4).getLsbD 0 }

/-! ### Interrupts -/

/-- VRQn from a set of request flags and the enable flags (R423). -/
def State.vrq (s : State) (q : Flags) (n : Nat) : Bool :=
  let e := s.ints.ie
  match n with
  | 1 => (q.bt && e.bt) || (q.int4 && e.int4)
  | 2 => q.int0 && e.int0
  | 3 => q.int1 && e.int1
  | 4 => q.csi && e.csi
  | 5 => q.t0 && e.t0
  | 6 => q.t1 && e.t1
  | _ => false

/-- Flag by flag conjunction. -/
def Flags.and (p q : Flags) : Flags :=
  ⟨p.bt && q.bt, p.int4 && q.int4, p.int0 && q.int0, p.int1 && q.int1, p.csi && q.csi, p.t0 && q.t0, p.t1 && q.t1,
    p.w && q.w, p.int2 && q.int2⟩

/-- VRQn may be accepted at this boundary (R434, R435), the hold-offs apart. -/
def State.acceptable (s : State) (n : Nat) : Bool :=
  s.ints.ime && s.vrq (s.ints.irq.and s.ints.visible) n &&
    (s.ist == 0 || (s.ist == 1 && s.ints.ips.toNat == n))

/-- No interrupt is accepted at this boundary: after an interrupt control instruction (R435), or during the two
instructions after a standby release (R456). -/
def State.heldOff (s : State) : Bool := s.ints.holdoff || decide (s.ints.releaseHold ≠ 0)

/-- The interrupt accepted at this boundary: the acceptable one with the smallest n (R434, D12). -/
def State.accepted (s : State) : Option Nat :=
  if s.heldOff then none else [1, 2, 3, 4, 5, 6].find? s.acceptable

/-- Clear the request flag of the accepted interrupt (R437). For VRQ1 with both enables set neither flag is cleared. -/
def State.clearAccepted (s : State) (n : Nat) : State :=
  let q := s.ints.irq
  let e := s.ints.ie
  let q' : Flags :=
    match n with
    | 1 => if e.bt && e.int4 then q else if e.bt then { q with bt := false } else { q with int4 := false }
    | 2 => { q with int0 := false }
    | 3 => { q with int1 := false }
    | 4 => { q with csi := false }
    | 5 => { q with t0 := false }
    | _ => { q with t1 := false }
  { s with ints := { s.ints with irq := q' } }

/-- The frame of an interrupt (R436): PC and the whole PSW, six nibbles in both modes. -/
def State.saveInterrupt (s : State) : State :=
  ((((((s.setStk (-1) s.pswHigh).setStk (-2) s.pswLow).setStk (-3) (s.pc.extractLsb' 4 4)).setStk (-4)
    (s.pc.extractLsb' 0 4)).setStk (-5)
    (if s.mkI then s.flagNibble s.pc else 0#2 ++ s.pc.extractLsb' 12 2)).setStk (-6) (s.pc.extractLsb' 8 4)).moveSp (-6)

/-- Load PC, MBE and RBE from the vector table entry at `v` (R431, R602). -/
def State.loadVector (s : State) (v : Nat) : Result :=
  match s.romByte v, s.romByte (v + 1) with
  | some b0, some b1 =>
    .next { s.setPc (b0.extractLsb' 0 6 ++ b1 : BitVec 14).toNat with mbe := b0.getLsbD 7, rbe := b0.getLsbD 6 }
  | none, _ => .fault (.beyondRom (s.romAddr v))
  | some _, none => .fault (.beyondRom (s.romAddr (v + 1)))

/-- TAKING AN INTERRUPT (R436, R437): the frame is pushed, the status goes up by one, the request flag is cleared, the
vector is loaded, the skip state starts clear; three machine cycles. The hold-off lets one instruction of the service
routine run first. -/
def enterInterrupt (n : Nat) (s : State) : Result :=
  andThen ((({ s.saveInterrupt with ist := s.ist + 1 }).clearAccepted n).loadVector (2 * n)) fun s1 =>
    .next { s1.ended 3 with ints := { s1.ints with holdoff := true } }

/-- The skip state that a popped PSWH stands for (R357, U10). -/
def stackedOf (pswh : Nibble) : Stacked :=
  if pswh.getLsbD 1 then .groupA else if pswh.getLsbD 2 then .groupB else .none

/-- RETURNING FROM AN INTERRUPT (R357): PC, then the whole PSW with the skip state. -/
def returnFromInterrupt (s : State) : State :=
  { (s.setPc s.frameReturn).moveSp 6 with
    ist := (s.stk 4).extractLsb' 2 2, mbe := (s.stk 4).getLsbD 1, rbe := (s.stk 4).getLsbD 0,
    cy := (s.stk 5).getLsbD 3, addsNoskip := (s.stk 5).getLsbD 0, stacked := stackedOf (s.stk 5) }

end Sys2Proof.Machine
end

