-- ==== Sys2Proof/Machine/Flags.lean ====
section
/-! DEFINITION. The arithmetic of R260: results with carry or borrow for 4 and 8 bits. CY is the only flag (R259). -/

namespace Sys2Proof.Machine

/-- `add(a, b, c)`: the sum modulo 2^w and the carry out (R260). -/
def addC {w : Nat} (a b : BitVec w) (c : Bool) : BitVec w × Bool :=
  let n := a.toNat + b.toNat + c.toNat
  (BitVec.ofNat w n, decide (2 ^ w ≤ n))

/-- `sub(a, b, c)`: the difference modulo 2^w and the borrow (R260). -/
def subC {w : Nat} (a b : BitVec w) (c : Bool) : BitVec w × Bool :=
  let d : Int := (a.toNat : Int) - b.toNat - c.toNat
  (BitVec.ofInt w d, decide (d < 0))

/-- Write the carry flag (R30). -/
def State.setCy (s : State) (c : Bool) : State := { s with cy := c }

/-- `RORC A`: the accumulator shifted right with CY into bit 3, and the new CY (R236). -/
def rorc (a : Nibble) (cy : Bool) : Nibble × Bool := (BitVec.ofBool cy ++ a.extractLsb' 1 3, a.getLsbD 0)

end Sys2Proof.Machine
end

