-- ==== Sys2Proof/Machine/Operands.lean ====
section
/-! DEFINITION. Every operand form's effective address (20_memory.md R83 to R90; 43_bit_manipulation.md). -/

namespace Sys2Proof.Machine

/-- `MB_direct(mem8)` (R83). -/
def State.mbDirect (s : State) (m : Byte) : Nibble :=
  if s.mbe then s.mbs else if m ≤ 0x7F then 0 else 15

/-- `MB_indirect` = MBE·MBS (R83). -/
def State.mbIndirect (s : State) : Nibble := if s.mbe then s.mbs else 0

/-- `ea_mem` of the direct forms (R84, R85). -/
def State.eaMem (s : State) (m : Byte) : DAddr := s.mbDirect m ++ m

/-- `ea_mem` of the 8-bit direct forms: the even address (R86, D7). -/
def State.eaMem8 (s : State) (m : Byte) : DAddr := s.mbDirect m ++ evenMem m

/-- `ea_HL` (R87). -/
def State.eaHl (s : State) : DAddr := s.mbIndirect ++ s.getReg .h ++ s.getReg .l

/-- `ea_HL` of the 8-bit forms: bit 0 of L is ignored (R89). -/
def State.eaHl8 (s : State) : DAddr := s.mbIndirect ++ s.getReg .h ++ (s.getReg .l &&& 0xE)

/-- `ea_DE` and `ea_DL`: always bank 0 (R88). -/
def State.eaRpa1 (s : State) : Rpa1 → DAddr
  | .de => 0#4 ++ s.getReg .d ++ s.getReg .e
  | .dl => 0#4 ++ s.getReg .d ++ s.getReg .l

/-- `fmem` (R90 (a), R144): FB0H + f or FF0H + f. -/
def fmemAddr (hi : Bool) (f : Nibble) : DAddr := (if hi then 0xFF#8 else 0xFB#8) ++ f

/-- `pmem.@L` (R90 (b)): the word FC0H + 4·g + L[3:2]. -/
def State.pmemAddr (s : State) (g : Nibble) : DAddr := 3#2 ++ 3#2 ++ 3#2 ++ g ++ (s.getReg .l).extractLsb' 2 2

/-- `pmem.@L` (R90 (b)): the bit L[1:0]. -/
def State.pmemBit (s : State) : BitVec 2 := (s.getReg .l).extractLsb' 0 2

/-- `@H+mem.bit` (R90 (c)). -/
def State.hmemAddr (s : State) (d : Nibble) : DAddr := s.mbIndirect ++ s.getReg .h ++ d

end Sys2Proof.Machine
end

