-- ==== Sys2Proof/Machine/Shapes.lean ====
section
/-! DEFINITION. What many instructions have in common, once: loads, stores, exchanges, arithmetic on an accumulator, bit
operations, skips. `s` is the state with `pc` past the instruction (R120, log 40); the register bank is the one in force
when the instruction starts (R22). -/

namespace Sys2Proof.Machine

/-- `reg[r] <- v` in a bank fixed beforehand. -/
def State.setRegIn (s : State) (bank : BitVec 2) (r : Reg) (v : Nibble) : State := s.ramWrite (regAddr bank r) v

/-- `reg[A] <- DMemRead(a, 4)`. -/
def loadA (a : DAddr) (c : Nat) (s : State) : Result := ((s.touch a).setReg .a (s.read4 a)).finish c

/-- `XA <- DMemRead(a, 8)`. -/
def loadXa (a : DAddr) (c : Nat) (s : State) : Result := ((s.touch a).setPair .xa (s.read8 a)).finish c

/-- `DMemWrite(a, 4, reg[A])`. -/
def storeA (a : DAddr) (c : Nat) (s : State) : Result :=
  andThen ((s.touch a).write4 a (s.getReg .a)) fun t => t.finish c

/-- `DMemWrite(a, 8, XA)`. -/
def storeXa (a : DAddr) (c : Nat) (s : State) : Result :=
  andThen ((s.touch a).write8 a (s.getPair .xa)) fun t => t.finish c

/-- The exchange of A with a data memory word, before the instruction ends: the word is read, then written, then A. -/
def swapA (a : DAddr) (s : State) : Result :=
  andThen ((s.touch a).write4 a (s.getReg .a)) fun t => .next (t.setRegIn s.regBank .a (s.read4 a))

/-- `A <-> DMem[a]`. -/
def exchangeA (a : DAddr) (c : Nat) (s : State) : Result := andThen (swapA a s) fun t => t.finish c

/-- `XA <-> DMem[a + 1], DMem[a]`. -/
def exchangeXa (a : DAddr) (c : Nat) (s : State) : Result :=
  andThen ((s.touch a).write8 a (s.getPair .xa)) fun t => (t.setPairIn s.regBank .xa (s.read8 a)).finish c

/-- The end of an `@HL+` form: L is incremented modulo 16; skip when it becomes 0 (R87). -/
def stepUpL (bank : BitVec 2) (s : State) : Result :=
  let l := s.ramRead (regAddr bank .l) + 1
  (s.setRegIn bank .l l).finishSkip 2 (l == 0)

/-- The end of an `@HL-` form: L is decremented modulo 16; skip when it becomes FH (R87). -/
def stepDownL (bank : BitVec 2) (s : State) : Result :=
  let l := s.ramRead (regAddr bank .l) - 1
  (s.setRegIn bank .l l).finishSkip 2 (l == 15)

/-- `A` becomes the result of an operation with a data memory word. -/
def accA (f : Nibble → Nibble → Nibble) (a : DAddr) (s : State) : Result :=
  ((s.touch a).setReg .a (f (s.getReg .a) (s.read4 a))).finish 1

/-- `A` becomes the result of an operation with an immediate. -/
def accAImm (f : Nibble → Nibble → Nibble) (n : Nibble) (s : State) : Result :=
  (s.setReg .a (f (s.getReg .a) n)).finish 2

/-- `XA` becomes the result of an operation with a pair of the rp' class. -/
def accXa (f : Byte → Byte → Byte) (p : RpP) (s : State) : Result :=
  (s.setPair .xa (f (s.getPair .xa) (s.getRpP p))).finish 2

/-- A pair of the rp' class becomes the result of an operation with `XA`. -/
def accRp (f : Byte → Byte → Byte) (p : RpP) (s : State) : Result :=
  (s.setRpP p (f (s.getRpP p) (s.getPair .xa))).finish 2

/-- `XA` becomes the result; the instruction skips on the carry or borrow, CY is unchanged (R261). -/
def skipXa (f : Byte → Byte → Bool → Byte × Bool) (p : RpP) (s : State) : Result :=
  let r := f (s.getPair .xa) (s.getRpP p) false
  (s.setPair .xa r.1).finishSkip 2 r.2

/-- A pair of the rp' class becomes the result; skip on carry or borrow. -/
def skipRp (f : Byte → Byte → Bool → Byte × Bool) (p : RpP) (s : State) : Result :=
  let r := f (s.getRpP p) (s.getPair .xa) false
  (s.setRpP p r.1).finishSkip 2 r.2

/-- `XA` becomes the result with CY in and carry or borrow out to CY (R261). -/
def carryXa (f : Byte → Byte → Bool → Byte × Bool) (p : RpP) (s : State) : Result :=
  let r := f (s.getPair .xa) (s.getRpP p) s.cy
  ((s.setPair .xa r.1).setCy r.2).finish 2

/-- A pair of the rp' class becomes the result with CY in and out. -/
def carryRp (f : Byte → Byte → Bool → Byte × Bool) (p : RpP) (s : State) : Result :=
  let r := f (s.getRpP p) (s.getPair .xa) s.cy
  ((s.setRpP p r.1).setCy r.2).finish 2

/-- `DMemWrite(a, 1, b, v)`. -/
def putBit (a : DAddr) (b : BitVec 2) (v : Bool) (s : State) : Result :=
  andThen ((s.touch a).writeBit a b v) fun t => t.finish 2

/-- `IME <- v`, an operation of EI and DI alone (R39), on FB2H bit 3. -/
def setIme (v : Bool) (s : State) : Result :=
  ({ s.touch 0xFB2 with ints := { (s.touch 0xFB2).ints with ime := v } }).finish 2

/-- The CPU enters HALT mode: the operation of HALT alone (R42, R451), on FB3H bit 2. -/
def haltCpu (s : State) : Result := (s.touch 0xFB3).enterHalt.finish 2

/-- The CPU enters STOP mode: the operation of STOP alone (R42, R451), on FB3H bit 3. -/
def stopCpu (s : State) : Result := andThen (s.touch 0xFB3).enterStop fun t => t.finish 2

/-- Skip if the bit has the value `v`. -/
def skipOnBit (a : DAddr) (b : BitVec 2) (v : Bool) (s : State) : Result :=
  (s.touch a).finishSkip 2 (s.readBit a b == v)

/-- Skip if the bit is 1, and clear it (R292). -/
def testAndClear (a : DAddr) (b : BitVec 2) (s : State) : Result :=
  if s.readBit a b then andThen ((s.touch a).writeBit a b false) fun t => t.finishSkip 2 true
  else (s.touch a).finish 2

/-- `CY <- f(CY, bit)`. -/
def cyFromBit (f : Bool → Bool → Bool) (a : DAddr) (b : BitVec 2) (s : State) : Result :=
  ((s.touch a).setCy (f s.cy (s.readBit a b))).finish 2

/-- A data memory word is incremented; skip when it becomes 0 (R240, R241). -/
def incsAt (a : DAddr) (s : State) : Result :=
  let v := s.read4 a + 1
  andThen ((s.touch a).write4 a v) fun t => t.finishSkip 2 (v == 0)

/-- `XA <- ROM[a]` (R190 to R193). -/
def tableRead (a : Nat) (s : State) : Result :=
  match s.romByte a with
  | some b => (s.setPair .xa b).finish 3
  | none => .fault (.beyondRom (s.romAddr a))

/-- A branch of `c` machine cycles. -/
def jump (t : Nat) (c : Nat) (s : State) : Result := (s.setPc t).finish c

/-- A call: the frame of the mode in force is pushed, then the branch. -/
def callTo (t : Nat) (c : Nat) (s : State) : Result := ((s.saveFrame s.pc).setPc t).finish c

end Sys2Proof.Machine
end

