-- ==== Sys2Proof/Machine/Arith.lean ====
section
/-! DEFINITION. Arithmetic, logic and accumulator instructions, increment, decrement and compare
(42_arithmetic_logic.md). -/

namespace Sys2Proof.Machine

/-- R210: the skip is disabled directly after an `ADDC A,@HL` without carry or a `SUBC A,@HL` with borrow (R130). -/
def execAddsAImm (n : Nibble) (s : State) : Result :=
  let r := addC (s.getReg .a) n false
  (s.setReg .a r.1).finishSkip 1 (r.2 && !s.addsNoskip)

/-- R211. -/
def execAddsXaImm (n : Byte) (s : State) : Result :=
  let r := addC (s.getPair .xa) n false
  (s.setPair .xa r.1).finishSkip 2 r.2

/-- R212. -/
def execAddsAHl (s : State) : Result :=
  let r := addC (s.getReg .a) (s.read4 s.eaHl) false
  ((s.touch s.eaHl).setReg .a r.1).finishSkip 1 r.2

/-- R213. -/
def execAddsXaRp (p : RpP) (s : State) : Result := skipXa addC p s

/-- R214. -/
def execAddsRpXa (p : RpP) (s : State) : Result := skipRp addC p s

/-- R215: a following `ADDS A,#n4` is skipped on carry (R130). -/
def execAddcAHl (s : State) : Result :=
  let r := addC (s.getReg .a) (s.read4 s.eaHl) s.cy
  (((s.touch s.eaHl).setReg .a r.1).setCy r.2).finishRadix 1 r.2

/-- R216. -/
def execAddcXaRp (p : RpP) (s : State) : Result := carryXa addC p s

/-- R217. -/
def execAddcRpXa (p : RpP) (s : State) : Result := carryRp addC p s

/-- R218. -/
def execSubsAHl (s : State) : Result :=
  let r := subC (s.getReg .a) (s.read4 s.eaHl) false
  ((s.touch s.eaHl).setReg .a r.1).finishSkip 1 r.2

/-- R219. -/
def execSubsXaRp (p : RpP) (s : State) : Result := skipXa subC p s

/-- R220. -/
def execSubsRpXa (p : RpP) (s : State) : Result := skipRp subC p s

/-- R221: a following `ADDS A,#n4` is skipped without borrow (R130). -/
def execSubcAHl (s : State) : Result :=
  let r := subC (s.getReg .a) (s.read4 s.eaHl) s.cy
  (((s.touch s.eaHl).setReg .a r.1).setCy r.2).finishRadix 1 (!r.2)

/-- R222. -/
def execSubcXaRp (p : RpP) (s : State) : Result := carryXa subC p s

/-- R223. -/
def execSubcRpXa (p : RpP) (s : State) : Result := carryRp subC p s

/-- R224. -/
def execAndAImm (n : Nibble) (s : State) : Result := accAImm (· &&& ·) n s

/-- R225. -/
def execAndAHl (s : State) : Result := accA (· &&& ·) s.eaHl s

/-- R226. -/
def execAndXaRp (p : RpP) (s : State) : Result := accXa (· &&& ·) p s

/-- R227. -/
def execAndRpXa (p : RpP) (s : State) : Result := accRp (· &&& ·) p s

/-- R228. -/
def execOrAImm (n : Nibble) (s : State) : Result := accAImm (· ||| ·) n s

/-- R229. -/
def execOrAHl (s : State) : Result := accA (· ||| ·) s.eaHl s

/-- R230. -/
def execOrXaRp (p : RpP) (s : State) : Result := accXa (· ||| ·) p s

/-- R231. -/
def execOrRpXa (p : RpP) (s : State) : Result := accRp (· ||| ·) p s

/-- R232. -/
def execXorAImm (n : Nibble) (s : State) : Result := accAImm (· ^^^ ·) n s

/-- R233. -/
def execXorAHl (s : State) : Result := accA (· ^^^ ·) s.eaHl s

/-- R234. -/
def execXorXaRp (p : RpP) (s : State) : Result := accXa (· ^^^ ·) p s

/-- R235. -/
def execXorRpXa (p : RpP) (s : State) : Result := accRp (· ^^^ ·) p s

/-- R236. -/
def execRorcA (s : State) : Result :=
  ((s.setReg .a (rorc (s.getReg .a) s.cy).1).setCy (rorc (s.getReg .a) s.cy).2).finish 1

/-- R237. -/
def execNotA (s : State) : Result := (s.setReg .a (~~~s.getReg .a)).finish 2

/-- R238. -/
def execIncsReg (r : Reg) (s : State) : Result :=
  (s.setReg r (s.getReg r + 1)).finishSkip 1 (s.getReg r + 1 == 0)

/-- R239. -/
def execIncsRp1 (p : Rp) (s : State) : Result :=
  (s.setPair p (s.getPair p + 1)).finishSkip 1 (s.getPair p + 1 == 0)

/-- R240. -/
def execIncsHl (s : State) : Result := incsAt s.eaHl s

/-- R241. -/
def execIncsMem (m : Byte) (s : State) : Result := incsAt (s.eaMem m) s

/-- R242. -/
def execDecsReg (r : Reg) (s : State) : Result :=
  (s.setReg r (s.getReg r - 1)).finishSkip 1 (s.getReg r - 1 == 15)

/-- R243. -/
def execDecsRp (p : RpP) (s : State) : Result :=
  (s.setRpP p (s.getRpP p - 1)).finishSkip 2 (s.getRpP p - 1 == 0xFF)

/-- R244. -/
def execSkeRegImm (r : Reg) (n : Nibble) (s : State) : Result := s.finishSkip 2 (s.getReg r == n)

/-- R245. -/
def execSkeHlImm (n : Nibble) (s : State) : Result := (s.touch s.eaHl).finishSkip 2 (s.read4 s.eaHl == n)

/-- R246. -/
def execSkeAHl (s : State) : Result := (s.touch s.eaHl).finishSkip 1 (s.getReg .a == s.read4 s.eaHl)

/-- R247. -/
def execSkeXaHl (s : State) : Result := (s.touch s.eaHl8).finishSkip 2 (s.getPair .xa == s.read8 s.eaHl8)

/-- R248. -/
def execSkeAReg (r : Reg) (s : State) : Result := s.finishSkip 2 (s.getReg .a == s.getReg r)

/-- R249. -/
def execSkeXaRp (p : RpP) (s : State) : Result := s.finishSkip 2 (s.getPair .xa == s.getRpP p)

end Sys2Proof.Machine
end

