-- ==== Sys2Proof/Machine/BitManip.lean ====
section
/-! DEFINITION. Carry-flag and memory-bit manipulation (43_bit_manipulation.md). -/

namespace Sys2Proof.Machine

/-- R280. -/
def execSet1Cy (s : State) : Result := (s.setCy true).finish 1

/-- R281. -/
def execClr1Cy (s : State) : Result := (s.setCy false).finish 1

/-- R282. -/
def execSktCy (s : State) : Result := s.finishSkip 1 s.cy

/-- R283. -/
def execNot1Cy (s : State) : Result := (s.setCy (!s.cy)).finish 1

/-- R284. -/
def execSet1Mem (m : Byte) (b : BitVec 2) (s : State) : Result := putBit (s.eaMem m) b true s

/-- R285. -/
def execSet1Fmem (hi : Bool) (f : Nibble) (b : BitVec 2) (s : State) : Result := putBit (fmemAddr hi f) b true s

/-- R285. -/
def execSet1Pmem (g : Nibble) (s : State) : Result := putBit (s.pmemAddr g) s.pmemBit true s

/-- R285. -/
def execSet1Hmem (d : Nibble) (b : BitVec 2) (s : State) : Result := putBit (s.hmemAddr d) b true s

/-- R286. -/
def execClr1Mem (m : Byte) (b : BitVec 2) (s : State) : Result := putBit (s.eaMem m) b false s

/-- R287. -/
def execClr1Fmem (hi : Bool) (f : Nibble) (b : BitVec 2) (s : State) : Result := putBit (fmemAddr hi f) b false s

/-- R287. -/
def execClr1Pmem (g : Nibble) (s : State) : Result := putBit (s.pmemAddr g) s.pmemBit false s

/-- R287. -/
def execClr1Hmem (d : Nibble) (b : BitVec 2) (s : State) : Result := putBit (s.hmemAddr d) b false s

/-- R288. -/
def execSktMem (m : Byte) (b : BitVec 2) (s : State) : Result := skipOnBit (s.eaMem m) b true s

/-- R289. -/
def execSktFmem (hi : Bool) (f : Nibble) (b : BitVec 2) (s : State) : Result := skipOnBit (fmemAddr hi f) b true s

/-- R289. -/
def execSktPmem (g : Nibble) (s : State) : Result := skipOnBit (s.pmemAddr g) s.pmemBit true s

/-- R289. -/
def execSktHmem (d : Nibble) (b : BitVec 2) (s : State) : Result := skipOnBit (s.hmemAddr d) b true s

/-- R290. -/
def execSkfMem (m : Byte) (b : BitVec 2) (s : State) : Result := skipOnBit (s.eaMem m) b false s

/-- R291. -/
def execSkfFmem (hi : Bool) (f : Nibble) (b : BitVec 2) (s : State) : Result := skipOnBit (fmemAddr hi f) b false s

/-- R291. -/
def execSkfPmem (g : Nibble) (s : State) : Result := skipOnBit (s.pmemAddr g) s.pmemBit false s

/-- R291. -/
def execSkfHmem (d : Nibble) (b : BitVec 2) (s : State) : Result := skipOnBit (s.hmemAddr d) b false s

/-- R292. -/
def execSktclrFmem (hi : Bool) (f : Nibble) (b : BitVec 2) (s : State) : Result := testAndClear (fmemAddr hi f) b s

/-- R292. -/
def execSktclrPmem (g : Nibble) (s : State) : Result := testAndClear (s.pmemAddr g) s.pmemBit s

/-- R292. -/
def execSktclrHmem (d : Nibble) (b : BitVec 2) (s : State) : Result := testAndClear (s.hmemAddr d) b s

/-- R293. -/
def execAnd1Fmem (hi : Bool) (f : Nibble) (b : BitVec 2) (s : State) : Result := cyFromBit (· && ·) (fmemAddr hi f) b s

/-- R293. -/
def execAnd1Pmem (g : Nibble) (s : State) : Result := cyFromBit (· && ·) (s.pmemAddr g) s.pmemBit s

/-- R293. -/
def execAnd1Hmem (d : Nibble) (b : BitVec 2) (s : State) : Result := cyFromBit (· && ·) (s.hmemAddr d) b s

/-- R294. -/
def execOr1Fmem (hi : Bool) (f : Nibble) (b : BitVec 2) (s : State) : Result := cyFromBit (· || ·) (fmemAddr hi f) b s

/-- R294. -/
def execOr1Pmem (g : Nibble) (s : State) : Result := cyFromBit (· || ·) (s.pmemAddr g) s.pmemBit s

/-- R294. -/
def execOr1Hmem (d : Nibble) (b : BitVec 2) (s : State) : Result := cyFromBit (· || ·) (s.hmemAddr d) b s

/-- R295. -/
def execXor1Fmem (hi : Bool) (f : Nibble) (b : BitVec 2) (s : State) : Result := cyFromBit Bool.xor (fmemAddr hi f) b s

/-- R295. -/
def execXor1Pmem (g : Nibble) (s : State) : Result := cyFromBit Bool.xor (s.pmemAddr g) s.pmemBit s

/-- R295. -/
def execXor1Hmem (d : Nibble) (b : BitVec 2) (s : State) : Result := cyFromBit Bool.xor (s.hmemAddr d) b s

end Sys2Proof.Machine
end

