-- ==== Sys2Proof/Machine/Control.lean ====
section
/-! DEFINITION. Branches (44_branch.md), subroutine and stack control (45_subroutine_stack.md), interrupt control,
input/output and CPU control (46_cpu_control_io_geti.md). -/

namespace Sys2Proof.Machine

/-- R321. -/
def execBr (t : BitVec 14) (s : State) : Result := jump t.toNat 3 s

/-- R322: Mk II mode only; refused in Mk I mode (U9). -/
def execBra (t : BitVec 15) (s : State) : Result := if s.mkI then .refused .mkIIOnly else jump t.toNat 3 s

/-- R323, forward: `pc` + k, k = 1 to 15. -/
def execBrFwd (k : Nibble) (s : State) : Result := jump (s.pc.toNat + k.toNat) 2 s

/-- R323, backward: `pc` + k - 16, k = 0 to 14. -/
def execBrBwd (k : Nibble) (s : State) : Result := jump (s.pc.toNat + 2 ^ 14 + k.toNat - 16) 2 s

/-- R324: PC bits 11-0 are replaced. -/
def execBrcb (t : BitVec 12) (s : State) : Result := jump (s.pc.toNat / 4096 * 4096 + t.toNat) 2 s

/-- R325. -/
def execBrPcde (s : State) : Result := jump (s.pc.toNat / 256 * 256 + (s.getPair .de).toNat) 3 s

/-- R326. -/
def execBrPcxa (s : State) : Result := jump (s.pc.toNat / 256 * 256 + (s.getPair .xa).toNat) 3 s

/-- R327. -/
def execBrBcde (s : State) : Result := jump ((s.getPair .bc).toNat * 256 + (s.getPair .de).toNat) 3 s

/-- R328. -/
def execBrBcxa (s : State) : Result := jump ((s.getPair .bc).toNat * 256 + (s.getPair .xa).toNat) 3 s

/-- R330: the assembler's choice, taken as the `BR !addr` it may stand for (log 35). -/
def execBrAuto (t : BitVec 14) (s : State) : Result := jump t.toNat 3 s

/-- R331: as `BR addr` (log 35). -/
def execBrAuto1 (t : BitVec 14) (s : State) : Result := jump t.toNat 3 s

/-- R332, R403 case 1: what a TBR entry does; GETI itself takes one of the 3 cycles (log 34). -/
def execTbr (t : BitVec 14) (s : State) : Result := jump t.toNat 2 s

/-- R352. -/
def execCall (t : BitVec 14) (s : State) : Result := callTo t.toNat (if s.mkI then 3 else 4) s

/-- R353: Mk II mode only; refused in Mk I mode (U9). -/
def execCalla (t : BitVec 15) (s : State) : Result := if s.mkI then .refused .mkIIOnly else callTo t.toNat 3 s

/-- R354. -/
def execCallf (t : BitVec 11) (s : State) : Result := callTo t.toNat (if s.mkI then 2 else 3) s

/-- R348, R403 case 2: what a TCALL entry does; GETI itself takes one of the 3 or 4 cycles (log 34). -/
def execTcall (t : BitVec 14) (s : State) : Result := callTo t.toNat (if s.mkI then 2 else 3) s

/-- R355. -/
def execRet (s : State) : Result := s.restoreFrame.finish 3

/-- R356. -/
def execRets (s : State) : Result := s.restoreFrame.finishSkip 3 true

/-- R357: PC and the whole PSW, the skip state included, are restored. -/
def execReti (s : State) : Result :=
  let t := returnFromInterrupt s
  .next { t with cycles := t.cycles + 3 }

/-- R358: the high register is stored first. -/
def execPushRp (p : Rp) (s : State) : Result :=
  let b := s.regBank
  let t := s.setStk (-1) (s.ramRead (regAddr b (rpRegs p).1))
  ((t.setStk (-2) (t.ramRead (regAddr b (rpRegs p).2))).moveSp (-2)).finish 1

/-- R359: the low register is loaded first. -/
def execPopRp (p : Rp) (s : State) : Result :=
  let b := s.regBank
  let t := s.setRegIn b (rpRegs p).2 (s.stk 0)
  ((t.setRegIn b (rpRegs p).1 (t.stk 1)).moveSp 2).finish 1

/-- R360. -/
def execPushBs (s : State) : Result :=
  (((s.setStk (-1) s.mbs).setStk (-2) (0#2 ++ s.rbs)).moveSp (-2)).finish 2

/-- R361: bits 3-2 of the popped RBS are discarded. -/
def execPopBs (s : State) : Result :=
  ({ s with rbs := (s.stk 0).extractLsb' 0 2, mbs := s.stk 1 }.moveSp 2).finish 2

/-- R380: IME <- 1. -/
def execEi (s : State) : Result := setIme true s

/-- R382: IME <- 0. -/
def execDi (s : State) : Result := setIme false s

/-- R381: IEBT <- 1. -/
def execEiIeBt (s : State) : Result := putBit 0xFB8 1 true s

/-- R381: IEW <- 1. -/
def execEiIeW (s : State) : Result := putBit 0xFBA 1 true s

/-- R381: IET0 <- 1. -/
def execEiIeT0 (s : State) : Result := putBit 0xFBC 1 true s

/-- R381: IECSI <- 1. -/
def execEiIeCsi (s : State) : Result := putBit 0xFBD 1 true s

/-- R381: IE0 <- 1. -/
def execEiIe0 (s : State) : Result := putBit 0xFBE 1 true s

/-- R381: IE2 <- 1. -/
def execEiIe2 (s : State) : Result := putBit 0xFBF 1 true s

/-- R381: IE4 <- 1. -/
def execEiIe4 (s : State) : Result := putBit 0xFB8 3 true s

/-- R381: IET1 <- 1. -/
def execEiIeT1 (s : State) : Result := putBit 0xFBC 3 true s

/-- R381: IE1 <- 1. -/
def execEiIe1 (s : State) : Result := putBit 0xFBE 3 true s

/-- R383: IEBT <- 0. -/
def execDiIeBt (s : State) : Result := putBit 0xFB8 1 false s

/-- R383: IEW <- 0. -/
def execDiIeW (s : State) : Result := putBit 0xFBA 1 false s

/-- R383: IET0 <- 0. -/
def execDiIeT0 (s : State) : Result := putBit 0xFBC 1 false s

/-- R383: IECSI <- 0. -/
def execDiIeCsi (s : State) : Result := putBit 0xFBD 1 false s

/-- R383: IE0 <- 0. -/
def execDiIe0 (s : State) : Result := putBit 0xFBE 1 false s

/-- R383: IE2 <- 0. -/
def execDiIe2 (s : State) : Result := putBit 0xFBF 1 false s

/-- R383: IE4 <- 0. -/
def execDiIe4 (s : State) : Result := putBit 0xFB8 3 false s

/-- R383: IET1 <- 0. -/
def execDiIeT1 (s : State) : Result := putBit 0xFBC 3 false s

/-- R383: IE1 <- 0. -/
def execDiIe1 (s : State) : Result := putBit 0xFBE 3 false s

/-- The `mem` operand F0H + n of a port (R384). -/
def portMem (n : Nibble) : Byte := 0xF#4 ++ n

/-- R386. -/
def execInAPort (n : Nibble) (s : State) : Result := loadA (s.eaMem (portMem n)) 2 s

/-- R387. -/
def execInXaPort (s : State) : Result := loadXa (s.eaMem 0xF4) 2 s

/-- R388. -/
def execOutPortA (n : Nibble) (s : State) : Result := storeA (s.eaMem (portMem n)) 2 s

/-- R389. -/
def execOutPortXa (s : State) : Result := storeXa (s.eaMem 0xF4) 2 s

/-- R390: PCC.2 <- 1. -/
def execHalt (s : State) : Result := haltCpu s

/-- R391: PCC.3 <- 1; refused on the subsystem clock (U14). -/
def execStop (s : State) : Result := stopCpu s

/-- R394. -/
def execNop (s : State) : Result := s.finish 1

/-- R395. -/
def execSelRb (n : BitVec 2) (s : State) : Result := { s with rbs := n }.finish 2

/-- R396: also for the values of n the operand rule forbids (U5). -/
def execSelMb (n : Nibble) (s : State) : Result := { s with mbs := n }.finish 2

/-- R148, U1: an unassigned code. -/
def execUnassigned (b1 : Byte) (b2 : Option Byte) (_ : State) : Result := .refused (.unassigned b1 b2)

end Sys2Proof.Machine
end

