-- ==== Sys2Proof/Machine/Transfer.lean ====
section
/-! DEFINITION. The transfer instructions MOV and XCH, the table references MOVT and the bit transfers MOV1
(41_transfer.md). -/

namespace Sys2Proof.Machine

/-- R161: a stacked instruction of group A. -/
def execMovAImm (n : Nibble) (s : State) : Result :=
  .next { (if s.stacked = .groupA then s else s.setReg .a n).ended 1 with stacked := .groupA }

/-- R162. -/
def execMovReg1Imm (r : Reg) (n : Nibble) (s : State) : Result := (s.setReg r n).finish 2

/-- R163: a stacked instruction of group A. -/
def execMovXaImm (n : Byte) (s : State) : Result :=
  .next { (if s.stacked = .groupA then s else s.setPair .xa n).ended 2 with stacked := .groupA }

/-- R164: a stacked instruction of group B. -/
def execMovHlImm (n : Byte) (s : State) : Result :=
  .next { (if s.stacked = .groupB then s else s.setPair .hl n).ended 2 with stacked := .groupB }

/-- R165. -/
def execMovRp2Imm (p : Rp) (n : Byte) (s : State) : Result := (s.setPair p n).finish 2

/-- R166. -/
def execMovAHl (s : State) : Result := loadA s.eaHl 1 s

/-- R167. -/
def execMovAHlInc (s : State) : Result := stepUpL s.regBank ((s.touch s.eaHl).setReg .a (s.read4 s.eaHl))

/-- R168. -/
def execMovAHlDec (s : State) : Result := stepDownL s.regBank ((s.touch s.eaHl).setReg .a (s.read4 s.eaHl))

/-- R169. -/
def execMovARpa1 (q : Rpa1) (s : State) : Result := loadA (s.eaRpa1 q) 1 s

/-- R170. -/
def execMovXaHl (s : State) : Result := loadXa s.eaHl8 2 s

/-- R171. -/
def execMovHlA (s : State) : Result := storeA s.eaHl 1 s

/-- R172. -/
def execMovHlXa (s : State) : Result := storeXa s.eaHl8 2 s

/-- R173. -/
def execMovAMem (m : Byte) (s : State) : Result := loadA (s.eaMem m) 2 s

/-- R174. -/
def execMovXaMem (m : Byte) (s : State) : Result := loadXa (s.eaMem8 m) 2 s

/-- R175. -/
def execMovMemA (m : Byte) (s : State) : Result := storeA (s.eaMem m) 2 s

/-- R176. -/
def execMovMemXa (m : Byte) (s : State) : Result := storeXa (s.eaMem8 m) 2 s

/-- R177. -/
def execMovAReg (r : Reg) (s : State) : Result := (s.setReg .a (s.getReg r)).finish 2

/-- R178. -/
def execMovXaRp (p : RpP) (s : State) : Result := (s.setPair .xa (s.getRpP p)).finish 2

/-- R179. -/
def execMovReg1A (r : Reg) (s : State) : Result := (s.setReg r (s.getReg .a)).finish 2

/-- R180. -/
def execMovRpXa (p : RpP) (s : State) : Result := (s.setRpP p (s.getPair .xa)).finish 2

/-- R181. -/
def execXchAHl (s : State) : Result := exchangeA s.eaHl 1 s

/-- R182. -/
def execXchAHlInc (s : State) : Result := andThen (swapA s.eaHl s) (stepUpL s.regBank)

/-- R183. -/
def execXchAHlDec (s : State) : Result := andThen (swapA s.eaHl s) (stepDownL s.regBank)

/-- R184. -/
def execXchARpa1 (q : Rpa1) (s : State) : Result := exchangeA (s.eaRpa1 q) 1 s

/-- R185. -/
def execXchXaHl (s : State) : Result := exchangeXa s.eaHl8 2 s

/-- R186. -/
def execXchAMem (m : Byte) (s : State) : Result := exchangeA (s.eaMem m) 2 s

/-- R187. -/
def execXchXaMem (m : Byte) (s : State) : Result := exchangeXa (s.eaMem8 m) 2 s

/-- R188. -/
def execXchAReg1 (r : Reg) (s : State) : Result := ((s.setReg r (s.getReg .a)).setReg .a (s.getReg r)).finish 1

/-- R189. -/
def execXchXaRp (p : RpP) (s : State) : Result :=
  ((s.setRpP p (s.getPair .xa)).setPair .xa (s.getRpP p)).finish 2

/-- R190: the page of the incremented PC. -/
def execMovtPcde (s : State) : Result := tableRead (s.pc.toNat / 256 * 256 + (s.getPair .de).toNat) s

/-- R191. -/
def execMovtPcxa (s : State) : Result := tableRead (s.pc.toNat / 256 * 256 + (s.getPair .xa).toNat) s

/-- R192: the low PCW bits of BCDE (D11). -/
def execMovtBcde (s : State) : Result := tableRead ((s.getPair .bc).toNat * 256 + (s.getPair .de).toNat) s

/-- R193. -/
def execMovtBcxa (s : State) : Result := tableRead ((s.getPair .bc).toNat * 256 + (s.getPair .xa).toNat) s

/-- R194. -/
def execMov1CyFmem (hi : Bool) (f : Nibble) (b : BitVec 2) (s : State) : Result :=
  cyFromBit (fun _ v => v) (fmemAddr hi f) b s

/-- R194. -/
def execMov1CyPmem (g : Nibble) (s : State) : Result := cyFromBit (fun _ v => v) (s.pmemAddr g) s.pmemBit s

/-- R194. -/
def execMov1CyHmem (d : Nibble) (b : BitVec 2) (s : State) : Result := cyFromBit (fun _ v => v) (s.hmemAddr d) b s

/-- R195. -/
def execMov1ToFmem (hi : Bool) (f : Nibble) (b : BitVec 2) (s : State) : Result := putBit (fmemAddr hi f) b s.cy s

/-- R195. -/
def execMov1ToPmem (g : Nibble) (s : State) : Result := putBit (s.pmemAddr g) s.pmemBit s.cy s

/-- R195. -/
def execMov1ToHmem (d : Nibble) (b : BitVec 2) (s : State) : Result := putBit (s.hmemAddr d) b s.cy s

end Sys2Proof.Machine
end

