-- ==== Sys2Proof/Machine/Geti.lean ====
section
/-! DEFINITION. GETI (46_cpu_control_io_geti.md R400 to R406): the table reference instruction executes what its table
entry holds. -/

namespace Sys2Proof.Machine

/-- An instruction that may stand in a table entry, by its own meaning (R403, R404): a TBR or TCALL entry, a two-byte
instruction of two machine cycles, or a one-byte instruction of an allowed pair. None for any other. -/
def runEntry (i : Instr) (s : State) : Option Result :=
  match i with
  | .movAImm _ => none
  | .movReg1Imm r n => some (execMovReg1Imm r n s)
  | .movXaImm n => some (execMovXaImm n s)
  | .movHlImm n => some (execMovHlImm n s)
  | .movRp2Imm p n => some (execMovRp2Imm p n s)
  | .movAHl => some (execMovAHl s)
  | .movAHlInc => none
  | .movAHlDec => none
  | .movARpa1 q => some (execMovARpa1 q s)
  | .movXaHl => some (execMovXaHl s)
  | .movHlA => some (execMovHlA s)
  | .movHlXa => some (execMovHlXa s)
  | .movAMem m => some (execMovAMem m s)
  | .movXaMem m => some (execMovXaMem m s)
  | .movMemA m => some (execMovMemA m s)
  | .movMemXa m => some (execMovMemXa m s)
  | .movAReg r => some (execMovAReg r s)
  | .movXaRp p => some (execMovXaRp p s)
  | .movReg1A r => some (execMovReg1A r s)
  | .movRpXa p => some (execMovRpXa p s)
  | .xchAHl => some (execXchAHl s)
  | .xchAHlInc => none
  | .xchAHlDec => none
  | .xchARpa1 q => some (execXchARpa1 q s)
  | .xchXaHl => some (execXchXaHl s)
  | .xchAMem m => some (execXchAMem m s)
  | .xchXaMem m => some (execXchXaMem m s)
  | .xchAReg1 _ => none
  | .xchXaRp p => some (execXchXaRp p s)
  | .movtPcde => none
  | .movtPcxa => none
  | .movtBcde => none
  | .movtBcxa => none
  | .mov1CyFmem hi f b => some (execMov1CyFmem hi f b s)
  | .mov1CyPmem g => some (execMov1CyPmem g s)
  | .mov1CyHmem d b => some (execMov1CyHmem d b s)
  | .mov1ToFmem hi f b => some (execMov1ToFmem hi f b s)
  | .mov1ToPmem g => some (execMov1ToPmem g s)
  | .mov1ToHmem d b => some (execMov1ToHmem d b s)
  | .addsAImm _ => none
  | .addsXaImm n => some (execAddsXaImm n s)
  | .addsAHl => none
  | .addsXaRp p => some (execAddsXaRp p s)
  | .addsRpXa p => some (execAddsRpXa p s)
  | .addcAHl => none
  | .addcXaRp p => some (execAddcXaRp p s)
  | .addcRpXa p => some (execAddcRpXa p s)
  | .subsAHl => none
  | .subsXaRp p => some (execSubsXaRp p s)
  | .subsRpXa p => some (execSubsRpXa p s)
  | .subcAHl => none
  | .subcXaRp p => some (execSubcXaRp p s)
  | .subcRpXa p => some (execSubcRpXa p s)
  | .andAImm n => some (execAndAImm n s)
  | .andAHl => none
  | .andXaRp p => some (execAndXaRp p s)
  | .andRpXa p => some (execAndRpXa p s)
  | .orAImm n => some (execOrAImm n s)
  | .orAHl => none
  | .orXaRp p => some (execOrXaRp p s)
  | .orRpXa p => some (execOrRpXa p s)
  | .xorAImm n => some (execXorAImm n s)
  | .xorAHl => none
  | .xorXaRp p => some (execXorXaRp p s)
  | .xorRpXa p => some (execXorRpXa p s)
  | .rorcA => none
  | .notA => some (execNotA s)
  | .incsReg r => some (execIncsReg r s)
  | .incsRp1 p => some (execIncsRp1 p s)
  | .incsHl => some (execIncsHl s)
  | .incsMem m => some (execIncsMem m s)
  | .decsReg r => some (execDecsReg r s)
  | .decsRp p => some (execDecsRp p s)
  | .skeRegImm r n => some (execSkeRegImm r n s)
  | .skeHlImm n => some (execSkeHlImm n s)
  | .skeAHl => none
  | .skeXaHl => some (execSkeXaHl s)
  | .skeAReg r => some (execSkeAReg r s)
  | .skeXaRp p => some (execSkeXaRp p s)
  | .set1Cy => none
  | .clr1Cy => none
  | .sktCy => none
  | .not1Cy => none
  | .set1Mem m b => some (execSet1Mem m b s)
  | .set1Fmem hi f b => some (execSet1Fmem hi f b s)
  | .set1Pmem g => some (execSet1Pmem g s)
  | .set1Hmem d b => some (execSet1Hmem d b s)
  | .clr1Mem m b => some (execClr1Mem m b s)
  | .clr1Fmem hi f b => some (execClr1Fmem hi f b s)
  | .clr1Pmem g => some (execClr1Pmem g s)
  | .clr1Hmem d b => some (execClr1Hmem d b s)
  | .sktMem m b => some (execSktMem m b s)
  | .sktFmem hi f b => some (execSktFmem hi f b s)
  | .sktPmem g => some (execSktPmem g s)
  | .sktHmem d b => some (execSktHmem d b s)
  | .skfMem m b => some (execSkfMem m b s)
  | .skfFmem hi f b => some (execSkfFmem hi f b s)
  | .skfPmem g => some (execSkfPmem g s)
  | .skfHmem d b => some (execSkfHmem d b s)
  | .sktclrFmem hi f b => some (execSktclrFmem hi f b s)
  | .sktclrPmem g => some (execSktclrPmem g s)
  | .sktclrHmem d b => some (execSktclrHmem d b s)
  | .and1Fmem hi f b => some (execAnd1Fmem hi f b s)
  | .and1Pmem g => some (execAnd1Pmem g s)
  | .and1Hmem d b => some (execAnd1Hmem d b s)
  | .or1Fmem hi f b => some (execOr1Fmem hi f b s)
  | .or1Pmem g => some (execOr1Pmem g s)
  | .or1Hmem d b => some (execOr1Hmem d b s)
  | .xor1Fmem hi f b => some (execXor1Fmem hi f b s)
  | .xor1Pmem g => some (execXor1Pmem g s)
  | .xor1Hmem d b => some (execXor1Hmem d b s)
  | .br _ => none
  | .bra _ => none
  | .brFwd _ => none
  | .brBwd _ => none
  | .brcb _ => none
  | .brPcde => none
  | .brPcxa => none
  | .brBcde => none
  | .brBcxa => none
  | .brAuto _ => none
  | .brAuto1 _ => none
  | .tbr t => some (execTbr t s)
  | .call _ => none
  | .calla _ => none
  | .callf _ => none
  | .tcall t => some (execTcall t s)
  | .ret => none
  | .rets => none
  | .reti => none
  | .pushRp _ => none
  | .popRp _ => none
  | .pushBs => some (execPushBs s)
  | .popBs => some (execPopBs s)
  | .ei => some (execEi s)
  | .di => some (execDi s)
  | .eiIeBt => some (execEiIeBt s)
  | .eiIeW => some (execEiIeW s)
  | .eiIeT0 => some (execEiIeT0 s)
  | .eiIeCsi => some (execEiIeCsi s)
  | .eiIe0 => some (execEiIe0 s)
  | .eiIe2 => some (execEiIe2 s)
  | .eiIe4 => some (execEiIe4 s)
  | .eiIeT1 => some (execEiIeT1 s)
  | .eiIe1 => some (execEiIe1 s)
  | .diIeBt => some (execDiIeBt s)
  | .diIeW => some (execDiIeW s)
  | .diIeT0 => some (execDiIeT0 s)
  | .diIeCsi => some (execDiIeCsi s)
  | .diIe0 => some (execDiIe0 s)
  | .diIe2 => some (execDiIe2 s)
  | .diIe4 => some (execDiIe4 s)
  | .diIeT1 => some (execDiIeT1 s)
  | .diIe1 => some (execDiIe1 s)
  | .inAPort n => some (execInAPort n s)
  | .inXaPort => some (execInXaPort s)
  | .outPortA n => some (execOutPortA n s)
  | .outPortXa => some (execOutPortXa s)
  | .halt => some (execHalt s)
  | .stop => some (execStop s)
  | .nop => none
  | .selRb n => some (execSelRb n s)
  | .selMb n => some (execSelMb n s)
  | .getiLow _ => none
  | .getiHigh _ => none
  | .unassigned _ _ => none

/-- `GETI` on the two bytes at `t` (R400 to R405): the hidden skip state is cleared first; of the machine cycles GETI
takes, the entry's instructions account for all but one. -/
def getiAt (t : Nat) (s : State) : Result :=
  match s.romByte t, s.romByte (t + 1) with
  | some e0, some e1 =>
    let s1 := s.ended 1
    match decodeEntry e0 e1 with
    | .one i => (runEntry i s1).getD (.refused (.getiEntry e0 e1))
    | .two i j =>
      andThen ((runEntry i s1).getD (.refused (.getiEntry e0 e1))) fun s2 =>
        (runEntry j s2).getD (.refused (.getiEntry e0 e1))
    | .other => .refused (.getiEntry e0 e1)
  | none, _ => .fault (.beyondRom (s.romAddr t))
  | some _, none => .fault (.beyondRom (s.romAddr (t + 1)))

/-- R400: codes 10H-1FH, taddr = 20H to 3EH. -/
def execGetiLow (t : BitVec 4) (s : State) : Result := getiAt (0x20 + 2 * t.toNat) s

/-- R400: codes 20H-3FH, taddr = 40H to 7EH. -/
def execGetiHigh (t : BitVec 5) (s : State) : Result := getiAt (0x40 + 2 * t.toNat) s

end Sys2Proof.Machine
end

