-- ==== Sys2Proof/Machine/Dispatch.lean ====
section
/-! DEFINITION. One arm for each instruction: its meaning. -/

namespace Sys2Proof.Machine

def exec (i : Instr) (s : State) : Host.Outcome State Fault Refusal :=
  match i with
  | .movAImm n => Sys2Proof.Machine.execMovAImm n s
  | .movReg1Imm r n => Sys2Proof.Machine.execMovReg1Imm r n s
  | .movXaImm n => Sys2Proof.Machine.execMovXaImm n s
  | .movHlImm n => Sys2Proof.Machine.execMovHlImm n s
  | .movRp2Imm p n => Sys2Proof.Machine.execMovRp2Imm p n s
  | .movAHl => Sys2Proof.Machine.execMovAHl s
  | .movAHlInc => Sys2Proof.Machine.execMovAHlInc s
  | .movAHlDec => Sys2Proof.Machine.execMovAHlDec s
  | .movARpa1 q => Sys2Proof.Machine.execMovARpa1 q s
  | .movXaHl => Sys2Proof.Machine.execMovXaHl s
  | .movHlA => Sys2Proof.Machine.execMovHlA s
  | .movHlXa => Sys2Proof.Machine.execMovHlXa s
  | .movAMem m => Sys2Proof.Machine.execMovAMem m s
  | .movXaMem m => Sys2Proof.Machine.execMovXaMem m s
  | .movMemA m => Sys2Proof.Machine.execMovMemA m s
  | .movMemXa m => Sys2Proof.Machine.execMovMemXa m s
  | .movAReg r => Sys2Proof.Machine.execMovAReg r s
  | .movXaRp p => Sys2Proof.Machine.execMovXaRp p s
  | .movReg1A r => Sys2Proof.Machine.execMovReg1A r s
  | .movRpXa p => Sys2Proof.Machine.execMovRpXa p s
  | .xchAHl => Sys2Proof.Machine.execXchAHl s
  | .xchAHlInc => Sys2Proof.Machine.execXchAHlInc s
  | .xchAHlDec => Sys2Proof.Machine.execXchAHlDec s
  | .xchARpa1 q => Sys2Proof.Machine.execXchARpa1 q s
  | .xchXaHl => Sys2Proof.Machine.execXchXaHl s
  | .xchAMem m => Sys2Proof.Machine.execXchAMem m s
  | .xchXaMem m => Sys2Proof.Machine.execXchXaMem m s
  | .xchAReg1 r => Sys2Proof.Machine.execXchAReg1 r s
  | .xchXaRp p => Sys2Proof.Machine.execXchXaRp p s
  | .movtPcde => Sys2Proof.Machine.execMovtPcde s
  | .movtPcxa => Sys2Proof.Machine.execMovtPcxa s
  | .movtBcde => Sys2Proof.Machine.execMovtBcde s
  | .movtBcxa => Sys2Proof.Machine.execMovtBcxa s
  | .mov1CyFmem hi f b => Sys2Proof.Machine.execMov1CyFmem hi f b s
  | .mov1CyPmem g => Sys2Proof.Machine.execMov1CyPmem g s
  | .mov1CyHmem d b => Sys2Proof.Machine.execMov1CyHmem d b s
  | .mov1ToFmem hi f b => Sys2Proof.Machine.execMov1ToFmem hi f b s
  | .mov1ToPmem g => Sys2Proof.Machine.execMov1ToPmem g s
  | .mov1ToHmem d b => Sys2Proof.Machine.execMov1ToHmem d b s
  | .addsAImm n => Sys2Proof.Machine.execAddsAImm n s
  | .addsXaImm n => Sys2Proof.Machine.execAddsXaImm n s
  | .addsAHl => Sys2Proof.Machine.execAddsAHl s
  | .addsXaRp p => Sys2Proof.Machine.execAddsXaRp p s
  | .addsRpXa p => Sys2Proof.Machine.execAddsRpXa p s
  | .addcAHl => Sys2Proof.Machine.execAddcAHl s
  | .addcXaRp p => Sys2Proof.Machine.execAddcXaRp p s
  | .addcRpXa p => Sys2Proof.Machine.execAddcRpXa p s
  | .subsAHl => Sys2Proof.Machine.execSubsAHl s
  | .subsXaRp p => Sys2Proof.Machine.execSubsXaRp p s
  | .subsRpXa p => Sys2Proof.Machine.execSubsRpXa p s
  | .subcAHl => Sys2Proof.Machine.execSubcAHl s
  | .subcXaRp p => Sys2Proof.Machine.execSubcXaRp p s
  | .subcRpXa p => Sys2Proof.Machine.execSubcRpXa p s
  | .andAImm n => Sys2Proof.Machine.execAndAImm n s
  | .andAHl => Sys2Proof.Machine.execAndAHl s
  | .andXaRp p => Sys2Proof.Machine.execAndXaRp p s
  | .andRpXa p => Sys2Proof.Machine.execAndRpXa p s
  | .orAImm n => Sys2Proof.Machine.execOrAImm n s
  | .orAHl => Sys2Proof.Machine.execOrAHl s
  | .orXaRp p => Sys2Proof.Machine.execOrXaRp p s
  | .orRpXa p => Sys2Proof.Machine.execOrRpXa p s
  | .xorAImm n => Sys2Proof.Machine.execXorAImm n s
  | .xorAHl => Sys2Proof.Machine.execXorAHl s
  | .xorXaRp p => Sys2Proof.Machine.execXorXaRp p s
  | .xorRpXa p => Sys2Proof.Machine.execXorRpXa p s
  | .rorcA => Sys2Proof.Machine.execRorcA s
  | .notA => Sys2Proof.Machine.execNotA s
  | .incsReg r => Sys2Proof.Machine.execIncsReg r s
  | .incsRp1 p => Sys2Proof.Machine.execIncsRp1 p s
  | .incsHl => Sys2Proof.Machine.execIncsHl s
  | .incsMem m => Sys2Proof.Machine.execIncsMem m s
  | .decsReg r => Sys2Proof.Machine.execDecsReg r s
  | .decsRp p => Sys2Proof.Machine.execDecsRp p s
  | .skeRegImm r n => Sys2Proof.Machine.execSkeRegImm r n s
  | .skeHlImm n => Sys2Proof.Machine.execSkeHlImm n s
  | .skeAHl => Sys2Proof.Machine.execSkeAHl s
  | .skeXaHl => Sys2Proof.Machine.execSkeXaHl s
  | .skeAReg r => Sys2Proof.Machine.execSkeAReg r s
  | .skeXaRp p => Sys2Proof.Machine.execSkeXaRp p s
  | .set1Cy => Sys2Proof.Machine.execSet1Cy s
  | .clr1Cy => Sys2Proof.Machine.execClr1Cy s
  | .sktCy => Sys2Proof.Machine.execSktCy s
  | .not1Cy => Sys2Proof.Machine.execNot1Cy s
  | .set1Mem m b => Sys2Proof.Machine.execSet1Mem m b s
  | .set1Fmem hi f b => Sys2Proof.Machine.execSet1Fmem hi f b s
  | .set1Pmem g => Sys2Proof.Machine.execSet1Pmem g s
  | .set1Hmem d b => Sys2Proof.Machine.execSet1Hmem d b s
  | .clr1Mem m b => Sys2Proof.Machine.execClr1Mem m b s
  | .clr1Fmem hi f b => Sys2Proof.Machine.execClr1Fmem hi f b s
  | .clr1Pmem g => Sys2Proof.Machine.execClr1Pmem g s
  | .clr1Hmem d b => Sys2Proof.Machine.execClr1Hmem d b s
  | .sktMem m b => Sys2Proof.Machine.execSktMem m b s
  | .sktFmem hi f b => Sys2Proof.Machine.execSktFmem hi f b s
  | .sktPmem g => Sys2Proof.Machine.execSktPmem g s
  | .sktHmem d b => Sys2Proof.Machine.execSktHmem d b s
  | .skfMem m b => Sys2Proof.Machine.execSkfMem m b s
  | .skfFmem hi f b => Sys2Proof.Machine.execSkfFmem hi f b s
  | .skfPmem g => Sys2Proof.Machine.execSkfPmem g s
  | .skfHmem d b => Sys2Proof.Machine.execSkfHmem d b s
  | .sktclrFmem hi f b => Sys2Proof.Machine.execSktclrFmem hi f b s
  | .sktclrPmem g => Sys2Proof.Machine.execSktclrPmem g s
  | .sktclrHmem d b => Sys2Proof.Machine.execSktclrHmem d b s
  | .and1Fmem hi f b => Sys2Proof.Machine.execAnd1Fmem hi f b s
  | .and1Pmem g => Sys2Proof.Machine.execAnd1Pmem g s
  | .and1Hmem d b => Sys2Proof.Machine.execAnd1Hmem d b s
  | .or1Fmem hi f b => Sys2Proof.Machine.execOr1Fmem hi f b s
  | .or1Pmem g => Sys2Proof.Machine.execOr1Pmem g s
  | .or1Hmem d b => Sys2Proof.Machine.execOr1Hmem d b s
  | .xor1Fmem hi f b => Sys2Proof.Machine.execXor1Fmem hi f b s
  | .xor1Pmem g => Sys2Proof.Machine.execXor1Pmem g s
  | .xor1Hmem d b => Sys2Proof.Machine.execXor1Hmem d b s
  | .br t => Sys2Proof.Machine.execBr t s
  | .bra t => Sys2Proof.Machine.execBra t s
  | .brFwd k => Sys2Proof.Machine.execBrFwd k s
  | .brBwd k => Sys2Proof.Machine.execBrBwd k s
  | .brcb t => Sys2Proof.Machine.execBrcb t s
  | .brPcde => Sys2Proof.Machine.execBrPcde s
  | .brPcxa => Sys2Proof.Machine.execBrPcxa s
  | .brBcde => Sys2Proof.Machine.execBrBcde s
  | .brBcxa => Sys2Proof.Machine.execBrBcxa s
  | .brAuto t => Sys2Proof.Machine.execBrAuto t s
  | .brAuto1 t => Sys2Proof.Machine.execBrAuto1 t s
  | .tbr t => Sys2Proof.Machine.execTbr t s
  | .call t => Sys2Proof.Machine.execCall t s
  | .calla t => Sys2Proof.Machine.execCalla t s
  | .callf t => Sys2Proof.Machine.execCallf t s
  | .tcall t => Sys2Proof.Machine.execTcall t s
  | .ret => Sys2Proof.Machine.execRet s
  | .rets => Sys2Proof.Machine.execRets s
  | .reti => Sys2Proof.Machine.execReti s
  | .pushRp p => Sys2Proof.Machine.execPushRp p s
  | .popRp p => Sys2Proof.Machine.execPopRp p s
  | .pushBs => Sys2Proof.Machine.execPushBs s
  | .popBs => Sys2Proof.Machine.execPopBs s
  | .ei => Sys2Proof.Machine.execEi s
  | .di => Sys2Proof.Machine.execDi s
  | .eiIeBt => Sys2Proof.Machine.execEiIeBt s
  | .eiIeW => Sys2Proof.Machine.execEiIeW s
  | .eiIeT0 => Sys2Proof.Machine.execEiIeT0 s
  | .eiIeCsi => Sys2Proof.Machine.execEiIeCsi s
  | .eiIe0 => Sys2Proof.Machine.execEiIe0 s
  | .eiIe2 => Sys2Proof.Machine.execEiIe2 s
  | .eiIe4 => Sys2Proof.Machine.execEiIe4 s
  | .eiIeT1 => Sys2Proof.Machine.execEiIeT1 s
  | .eiIe1 => Sys2Proof.Machine.execEiIe1 s
  | .diIeBt => Sys2Proof.Machine.execDiIeBt s
  | .diIeW => Sys2Proof.Machine.execDiIeW s
  | .diIeT0 => Sys2Proof.Machine.execDiIeT0 s
  | .diIeCsi => Sys2Proof.Machine.execDiIeCsi s
  | .diIe0 => Sys2Proof.Machine.execDiIe0 s
  | .diIe2 => Sys2Proof.Machine.execDiIe2 s
  | .diIe4 => Sys2Proof.Machine.execDiIe4 s
  | .diIeT1 => Sys2Proof.Machine.execDiIeT1 s
  | .diIe1 => Sys2Proof.Machine.execDiIe1 s
  | .inAPort n => Sys2Proof.Machine.execInAPort n s
  | .inXaPort => Sys2Proof.Machine.execInXaPort s
  | .outPortA n => Sys2Proof.Machine.execOutPortA n s
  | .outPortXa => Sys2Proof.Machine.execOutPortXa s
  | .halt => Sys2Proof.Machine.execHalt s
  | .stop => Sys2Proof.Machine.execStop s
  | .nop => Sys2Proof.Machine.execNop s
  | .selRb n => Sys2Proof.Machine.execSelRb n s
  | .selMb n => Sys2Proof.Machine.execSelMb n s
  | .getiLow t => Sys2Proof.Machine.execGetiLow t s
  | .getiHigh t => Sys2Proof.Machine.execGetiHigh t s
  | .unassigned b1 b2 => Sys2Proof.Machine.execUnassigned b1 b2 s

end Sys2Proof.Machine
end

