-- ==== Sys2Proof/Machine/Advance.lean ====
section
/-! DEFINITION. How the devices advance beside the CPU (66_serial_adc_bsb.md R590, R591; D15): software writes first,
then the hardware for the machine cycles that passed (D6). -/

namespace Sys2Proof.Machine

/-- The fX divider and the oscillators' remainders move on by the time `e` of a quantum of `c` machine cycles. -/
def State.advanceDividers (s : State) (c : Nat) (e : Elapsed) : State :=
  let t := s.keepRemainders c
  { t with clk := { t.clk with div := BitVec.ofNat 12 (t.clk.div.toNat + e.fx) } }

/-- All devices for the time `e` of `c` machine cycles, which brings the pin edges `pe`: the counters, the serial
interface, the watch timer, the A/D converter, the noise eliminator, BT (which counts the wait after RESET itself, log 38), the
clock output. -/
def State.advanceFor (s : State) (c : Nat) (e : Elapsed) (pe : PinEdges) : State :=
  let r := s.advanceTimers e pe
  let s1 := r.1.advanceSerial e pe s.timer0.tout r.2
  let s2 := ((s1.advanceWatch e).advanceAdc e).advanceNoise e
  let s3 :=
    match s2.standby with
    | .resetHeld | .resetWait _ => s2
    | _ => s2.advanceBt e
  ((s3.modeGlitches e).tickPcl e).advanceDividers c e

/-- `c` machine cycles of all devices, and of a pending clock change. -/
def State.advance (s : State) (c : Nat) (pe : PinEdges) : State :=
  let e := s.elapsed c
  (s.advanceFor c e pe).tickSwitch e.cycles

/-- The request flags as the next boundary sees them (R435). -/
def State.snapshot (s : State) : State := { s with ints := { s.ints with visible := s.ints.irq } }

/-- An instruction of `c` machine cycles: the pin edges come first, then all cycles but the last, then the request flags
are noted, then the last cycle (R435). -/
def State.advanceInstr (s : State) (c : Nat) : State :=
  let pe := s.pinEdges
  let s0 := s.detectEdges
  if c ≤ 1 then s0.snapshot.advance c pe
  else ((s0.advance (c - 1) pe).snapshot).advance 1 PinEdges.none

/-- What follows the CPU's part of a step from `before` to `t` (R590 (3)): the devices advance by the machine cycles that
passed, which still belong to the operating mode, and a change of the selected CPU clock begins. A watchdog overflow in the
machine cycles of an instruction that enters a standby mode (HALT, STOP, a write of PCC) resets in the next step, when that
mode is in force: it counts as a reset in a standby mode (DESIGN CHOICE, log 55). -/
def settle (before t : State) : State :=
  let c := t.cycles - before.cycles
  let a := ({ t with standby := .run }.openWindows c).advanceInstr c
  { a with standby := t.standby }.armSwitch before

/-- Every step uses new free values (log 1). -/
def State.bump (s : State) : State := { s with freeCount := s.freeCount + 1 }

end Sys2Proof.Machine
end

