-- ==== Sys2Proof/Machine/Standby.lean ====
section
/-! DEFINITION. The standby modes (60_exceptions.md R450 to R460) and the reset operation (70_reset_and_hazards.md R600 to
R606). -/

namespace Sys2Proof.Machine

/-- The standby release signal (R454). -/
def State.release (s : State) : Bool :=
  let q := s.ints.irq
  let e := s.ints.ie
  s.vrq q 1 || s.vrq q 2 || s.vrq q 3 || s.vrq q 4 || s.vrq q 5 || s.vrq q 6 || (q.w && e.w) || (q.int2 && e.int2)

/-- Release (R452, R455): HALT ends at once, PCC.3 and PCC.2 are cleared and two instructions run before an interrupt is
accepted (R456); after STOP BT counts the wait from 0 (R535). -/
def State.releaseStandby (s : State) : State :=
  match s.standby with
  | .halt => { s with standby := .run, clk := { s.clk with pcc := s.clk.pcc &&& 0x3 },
                      ints := { s.ints with releaseHold := 2 } }
  | .stop => { s with standby := .wait, bt := { s.bt with count := 0 } }
  | _ => s

/-- Time without an instruction, as long as `c` machine cycles (log 22): the edges of the host's sample, then the
devices. -/
def State.quantum (s : State) (c : Nat) : State := s.detectEdges.advance c s.pinEdges

/-- HALT or STOP (R454, R460, R590): the devices see the host's sample and a quantum passes, none if a release is pending,
which takes effect at once; then the release is looked at. That fX counts as stopped in STOP mode's step of no time, so that
it freezes an A/D conversion, is the model's choice (R454; DESIGN CHOICE, logs 22 and 28). A reset
signal of the watchdog in the same quantum comes in the standby mode: the mode is not released before it (R457, R601; their
order is open: DESIGN CHOICE, log 55). -/
def State.standbyStep (s : State) : State :=
  let t := s.quantum (if s.release then 0 else 1)
  if t.release && !t.resetReq then t.releaseStandby else t

/-- The wait after RESET (R603): when its fX periods have passed the reset vector is loaded and the CPU starts (R602). -/
def State.resetWaitStep (s : State) (left : Nat) : Result :=
  let t := s.quantum 1
  let fx := (s.elapsed 1).fx
  if left ≤ fx then { t with standby := .run }.loadVector 0
  else .next { t with standby := .resetWait (left - fx) }

/-- The levels on the edge-detected pins as they are now. That the edge detectors and the noise eliminator's output start
from them after a reset is the model's choice (DESIGN CHOICE, log 38): R601 does not name them. -/
def State.currentEdges (s : State) : Edges :=
  { int0 := s.pins.p1.getLsbD 0, int1 := s.pins.p1.getLsbD 1, int2 := s.pins.p1.getLsbD 2,
    int4 := s.pins.p0.getLsbD 0, ti0 := s.pins.p1.getLsbD 3, ti1 := s.pins.p1.getLsbD 2, sck := s.pins.p0.getLsbD 1,
    kr := s.pins.p6, nfOut := s.pins.p1.getLsbD 0, nfCount := 0 }

/-- RESET came in a standby mode (R601): also in the wait that ends STOP mode. -/
def Standby.isStandby : Standby → Bool
  | .halt | .stop | .wait => true
  | .run | .resetHeld | .resetWait _ => false

/-- The reset operation (R606). What Table 8-1 calls undefined is a free value, and so is the phase of fXT against
fX, on which the spec is silent (DESIGN CHOICE, log 38); CY, RAM, SIO and BSB are retained when
RESET comes in a standby mode. The wait of R603 follows, once /RESET is high again; the reset vector is loaded at its
end. -/
def State.resetOperation (s : State) : State :=
  let keep := s.standby.isStandby
  let k := s.freeCount
  let bsb := Config.resetBsb k
  { s with
    ram := if keep then s.ram else cellFill ramDefault (Config.resetRam k) ramSize,
    cy := if keep then s.cy else Config.resetCy k,
    stacked := .none, addsNoskip := false, ist := 0,
    sp := Config.resetSp k &&& 0xFE, sbs := 0x8, mbs := 0, rbs := 0,
    ints := Interrupts.reset,
    edges := s.currentEdges,
    clk := { pcc := 0, scc0 := false, scc3 := false, phi := { sub := false, sel := 0 }, switchIn := none, sos := 0,
             clom := 0, pcl := none, phiHigh := Config.phiLevel k, div := Config.resetDiv k,
             fxRem := Config.resetFxRem k % s.chip.fxtHz, fxtRem := Config.resetFxtRem k % s.chip.fxHz },
    bt := { btm := 0, count := Config.resetBt k, wdtm := false },
    watch := { wm := 0, div := 0, buzHigh := Config.buzLevel k },
    timer0 := TimerCounter.reset, timer1 := TimerCounter.reset,
    serial := { csim := 0, sio := if keep then s.serial.sio else Config.resetSio k, soLatch := Config.resetSo k,
                count := 0, running := false, sckLow := false, p01 := true },
    adc := Adc.reset,
    bsb0 := if keep then s.bsb0 else bsb.extractLsb' 0 4,
    bsb1 := if keep then s.bsb1 else bsb.extractLsb' 4 4,
    bsb2 := if keep then s.bsb2 else bsb.extractLsb' 8 4,
    bsb3 := if keep then s.bsb3 else bsb.extractLsb' 12 4,
    ports := Ports.reset,
    standby := if s.pins.resetAsserted then .resetHeld else .resetWait s.chip.resetWait,
    resetReq := false }

/-- /RESET stays low after the reset operation: one reset, whose elements keep their values (R601, log 38). -/
def State.holdReset (s : State) : State := { s with edges := s.currentEdges }

end Sys2Proof.Machine
end

