-- ==== Sys2Proof/Machine/Fetch.lean ====
section
/-! DEFINITION. Fetching an instruction's bytes (30_encoding.md R120, R122; 20_memory.md R82, R100), what the CPU does before an
instruction executes, and placing bytes where the next fetch reads them. -/

namespace Sys2Proof.Machine

/-- The `n` bytes at `a`; none if one of them is beyond the ROM. -/
def State.romBytes (s : State) : Nat → Nat → Option (List Byte)
  | _, 0 => some []
  | a, n + 1 =>
    match s.romByte a, s.romBytes (a + 1) n with
    | some b, some t => some (b :: t)
    | _, _ => none

/-- The first address of `n` bytes at `a` that is beyond the ROM (R82). -/
def State.firstBeyond (s : State) : Nat → Nat → Nat
  | a, 0 => s.romAddr a
  | a, n + 1 => if (s.romByte a).isNone then s.romAddr a else s.firstBeyond (a + 1) n

/-- The bytes of the instruction at PC: as many as its first byte asks for; an unassigned first byte is fetched alone. -/
def State.fetch (s : State) : Except Fault (List Byte) :=
  match s.romByte s.pc.toNat with
  | none => .error (.beyondRom (s.romAddr s.pc.toNat))
  | some b =>
    let n := (lengthOf b).getD 1
    match s.romBytes s.pc.toNat n with
    | some l => .ok l
    | none => .error (.beyondRom (s.firstBeyond s.pc.toNat n))

/-- Before an instruction of `n` bytes executes: `pc` is past it (R27, R120), the hold-off of the instruction before it is
over and one more instruction counts after a standby release (R435, R456). -/
def State.started (s : State) (n : Nat) : State :=
  { s.setPc (s.pc.toNat + n) with
    startedAt := s.cycles,
    ints := { s.ints with holdoff := false, releaseHold := s.ints.releaseHold - 1 } }

/-- The next sample of the host's inputs (R590 (1)). -/
def State.sample (s : State) : State :=
  match s.pinQueue with
  | [] => s
  | p :: q => { s with pins := p, pinQueue := q }

/-- Bytes stored in program memory from `a` on, as a loader outside the machine does (log 3). -/
def State.load (s : State) : Nat → List Byte → State
  | _, [] => s
  | a, b :: t => { s with rom := cellWrite romDefault s.rom (s.romAddr a) b }.load (a + 1) t

/-- The bytes of a table word that the fetch of its instruction reads: as many as the table gives, or as the first byte
asks for, zeros above. -/
def fetchBytes (nbits w : Nat) : List Byte :=
  let l := paddedBytes nbits w
  l.take (max (nbits / 8) ((lengthOf (l.headD 0)).getD 1))

end Sys2Proof.Machine
end

