-- ==== Sys2Proof/Machine/Step.lean ====
section
/-! DEFINITION. One step of the machine (66_serial_adc_bsb.md R590): sample the host, then a reset, a standby quantum, an
interrupt entry or one instruction, then the devices. -/

namespace Sys2Proof.Machine

/-- The instruction at PC is fetched, decoded and executed; the devices follow. -/
def instrStep (s : State) : Result :=
  match s.fetch with
  | .error f => .fault f
  | .ok bytes =>
    match decode bytes with
    | .error _ => .refused .truncatedCode
    | .ok (i, _) => andThen (exec i (s.started bytes.length)) fun t => .next (settle s t)

/-- The operating mode: accept an interrupt (R434, R435) or execute an instruction. -/
def runStep (s : State) : Result :=
  match s.accepted with
  | some n => andThen (enterInterrupt n s) fun t => .next (settle s t)
  | none => instrStep s

/-- What the machine does after the host was sampled. In the operating mode, while the oscillator of the CPU clock does not
run, only time passes (R518). -/
def modeStep (s : State) : Result :=
  if s.pins.resetAsserted && s.standby == .resetHeld then .next s.holdReset
  else if s.pins.resetAsserted || s.resetReq then .next s.resetOperation
  else
    match s.standby with
    | .run => if s.phiRuns then runStep s else .next (s.quantum 1)
    | .halt | .stop => .next s.standbyStep
    | .wait => .next (s.quantum 1)
    | .resetHeld => s.resetWaitStep s.chip.resetWait
    | .resetWait left => s.resetWaitStep left

/-- One step. -/
def step (s : State) : Host.Outcome State Fault Refusal :=
  andThen (modeStep s.sample) fun t => .next t.bump

/-- `s` with the instruction of a table word where `step` fetches next (log 3). -/
def State.withFetchWord (s : State) (nbits w : Nat) : State := s.load s.pc.toNat (fetchBytes nbits w)

end Sys2Proof.Machine
end

