-- ==== Sys2Proof/Safety.lean ====
section
/-! DEFINITION. What counts as a good state and as a run, and how the statements say what an instruction does: its answer,
what it changes, and that it changes nothing else. -/

namespace Sys2Proof.Machine

/-- What every step keeps: both memories in canonical form (R80, R81), SP bit 0 is 0 (R36), the program counter has PCW
bits (R26), bit 2 of CLOM and the unnamed bits of WM and POGA hold 0, and no prohibited mode is stored in BTM (R531), CSIM
(R561), TM0 and TM1 (R551, R557). -/
structure State.Inv (s : State) : Prop where
  rom : Memory.wf romDefault (2 ^ s.chip.part.pcWidth) s.rom = true
  ram : Memory.wf ramDefault ramSize s.ram = true
  sp : s.sp.getLsbD 0 = false
  pc : s.pc.toNat < 2 ^ s.chip.part.pcWidth
  clom : s.clk.clom.getLsbD 2 = false
  wm : s.watch.wm.getLsbD 3 = false ∧ s.watch.wm.getLsbD 6 = false
  poga : s.ports.poga &&& 0xB0 = 0
  btm : btmCodeOk s.bt.btm = true
  csim : csimOk s.serial.csim = true
  timers : (s.timer0.mode = 0 ∧ (s.timer1.mode = 0 ∨ s.timer1.read false = 0x22)) ∨
    (s.timer0.mode = 2 ∧ s.timer1.read false = 0x22)

/-- `n` steps from `s` lead to `t`. -/
def runsTo : Nat → State → State → Prop
  | 0, s, t => s = t
  | n + 1, s, t => ∃ u, step s = .next u ∧ runsTo n u t

/-- What an instruction is said to change: the machine cycles it takes, the data memory words it writes (of two entries for
one address the first counts; the general registers are data memory, R21), CY, the program counter, and the data memory
operand it names. -/
structure Effect where
  cycles : Nat
  words : List (DAddr × Nibble)
  cy : Bool
  pc : BitVec 14
  operand : Option DAddr

/-- The effect of spending `c` machine cycles and nothing else. -/
def State.quiet (s : State) (c : Nat) : Effect := { cycles := c, words := [], cy := s.cy, pc := s.pc, operand := none }

/-- An operand at FB0H-FBFH (R435). -/
def inIntControl (a : DAddr) : Bool := decide (0xFB0 ≤ a.toNat) && decide (a.toNat ≤ 0xFBF)

/-- The word at `a` after the listed words were written. -/
def wordAfter (ws : List (DAddr × Nibble)) (s : State) (a : DAddr) : Nibble := (ws.lookup a).getD (s.ramRead a)

/-- The answer `r` of an instruction at `s` is the next state that differs from `u` by the effect `e` alone: every field
not named here has its value of `u`, the hidden skip state is cleared (R129, R130), and every data memory word outside
`e.words` is as in `s`. `u` is `s`, with the registers the instruction writes beside `e`. -/
def Leads (s u : State) (r : Result) (e : Effect) : Prop :=
  ∃ t, r = .next t ∧
    t = { u with
      ram := t.ram, cy := e.cy, pc := e.pc, cycles := s.cycles + e.cycles, stacked := .none, addsNoskip := false,
      ints := { u.ints with holdoff := s.ints.holdoff || (e.operand.map inIntControl).getD false } } ∧
    ∀ a, t.ramRead a = wordAfter e.words s a

/-- As `Leads`, for an instruction that writes no register beside the effect. -/
def Does (s : State) (r : Result) (e : Effect) : Prop := Leads s s r e

/-- The instruction after this one starts with an assigned byte and has `n` bytes, so that a skip can pass over it
(R128). -/
def State.nextHas (s : State) (pc : BitVec 14) (n : Nat) : Prop :=
  ∃ b, s.romByte pc.toNat = some b ∧ lengthOf b = some n

/-- The effect with a skip over an instruction of `n` bytes if `c` holds (R128): one machine cycle more, two for a
three-byte instruction. -/
def Effect.skipIf (e : Effect) (s : State) (c : Bool) (n : Nat) : Effect :=
  if c then { e with pc := s.truncPc (e.pc.toNat + n), cycles := e.cycles + (if n = 3 then 2 else 1) } else e

/-- A register of the current bank and its new value. -/
def State.regWord (s : State) (r : Reg) (v : Nibble) : DAddr × Nibble := (regAddr s.regBank r, v)

/-- The two words of a pair. -/
def pairWords (bank : BitVec 2) (p : Rp) (v : Byte) : List (DAddr × Nibble) :=
  [(regAddr bank (rpRegs p).1, v.extractLsb' 4 4), (regAddr bank (rpRegs p).2, v.extractLsb' 0 4)]

/-- The words of a pair of the rp' class. -/
def State.rpWords (s : State) (p : RpP) (v : Byte) : List (DAddr × Nibble) := pairWords (s.pairBank p) (rpPair p).1 v

/-- The words of XA. -/
def State.xaWords (s : State) (v : Byte) : List (DAddr × Nibble) := pairWords s.regBank .xa v

/-- A store of 4 bits outside the peripheral area: kept where RAM is built in, lost elsewhere (R96). -/
def ramWords (a : DAddr) (v : Nibble) : List (DAddr × Nibble) := if isRam a then [(a, v)] else []

/-- A store of 8 bits at an even address outside the peripheral area. -/
def ramWords8 (a : DAddr) (v : Byte) : List (DAddr × Nibble) :=
  if isRam a then [(a, v.extractLsb' 0 4), (a + 1, v.extractLsb' 4 4)] else []

/-- A nibble pushed on the stack (lost in banks 2 and 3, U4). -/
def State.stackWord (s : State) (k : BitVec 8) (v : Nibble) : List (DAddr × Nibble) := ramWords (s.stkAddr k) v

/-- The word with bit `b` changed to `v`, bit by bit. -/
def withBit (w : Nibble) (b : BitVec 2) (v : Bool) : Nibble :=
  nib (if b = 3 then v else w.getLsbD 3) (if b = 2 then v else w.getLsbD 2) (if b = 1 then v else w.getLsbD 1)
    (if b = 0 then v else w.getLsbD 0)

/-- The state after an instruction whose only effect on the CPU is `u`: `c` machine cycles, the skip state cleared. -/
def State.after (u : State) (c : Nat) : State :=
  { u with cycles := u.cycles + c, stacked := .none, addsNoskip := false }

/-- The state after an instruction that skips the one after it if `c` holds, `n` bytes long. -/
def State.skipped (u : State) (c : Bool) (n : Nat) : State :=
  if c then { u with pc := u.truncPc (u.pc.toNat + n), cycles := u.cycles + (if n = 3 then 2 else 1) } else u

/-- `u` with the interrupt hold-off of an operand at FB0H-FBFH (R435). -/
def State.held (u : State) : State := { u with ints := { u.ints with holdoff := true } }

end Sys2Proof.Machine
end

