-- ==== Sys2Proof/Certificates/Slice0/Obligations.lean ====
section
/-! DEFINITION. The statements for the provers. An instruction is executed with `s.pc` past it (30_encoding.md R120, log 40):
`exec i s`. `Does` and `Leads` (Safety.lean) say that the answer is a next state, what it holds, and that every other field
of State and every other data memory word is as before. -/

open Sys2Proof Sys2Proof.Machine

/-! ### Encoding -/

/-- 30_encoding.md R123 to R127, R144: words written out from the tables, one or more from every family. That 92H C3H, whose
bit D0 the tables fix to 0, decodes as the even address C2H is the spec's decision D7 (R86, R137; log 52). -/
def Obligations.decode_table_words : Prop :=
  decode [0x7B] = .ok (.movAImm 0xB, []) ∧
  decode [0x9A, 0x3B] = .ok (.movReg1Imm .h 3, []) ∧
  decode [0xAA, 0x5B] = .ok (.movXaRp .hl', []) ∧
  decode [0x92, 0xC3] = .ok (.movMemXa 0xC2, []) ∧
  decode [0xD5] = .ok (.movtBcde, []) ∧
  decode [0x9B, 0x4D] = .ok (.mov1ToPmem 13, []) ∧
  decode [0xAA, 0xF5] = .ok (.subcRpXa .de', []) ∧
  decode [0x99, 0x5F] = .ok (.notA, []) ∧
  decode [0x8C] = .ok (.incsRp1 .de, []) ∧
  decode [0xA4, 0x87] = .ok (.clr1Mem 0x87 2, []) ∧
  decode [0x9F, 0x8D] = .ok (.sktclrFmem false 13 0, []) ∧
  decode [0xAB, 0x1A, 0xBC] = .ok (.br 0x1ABC, []) ∧
  decode [0xAB, 0x5A, 0xBC] = .ok (.call 0x1ABC, []) ∧
  decode [0x47, 0xFF] = .ok (.callf 0x7FF, []) ∧
  decode [0x4B] = .ok (.pushRp .hl, []) ∧
  decode [0x9D, 0xB2] = .ok (.ei, []) ∧
  decode [0x9D, 0xA3] = .ok (.halt, []) ∧
  decode [0x93, 0xF3] = .ok (.outPortA 3, []) ∧
  decode [0x99, 0x23] = .ok (.selRb 3, []) ∧
  decode [0x2F] = .ok (.getiHigh 15, []) ∧
  decode [0xFF] = .ok (.unassigned 0xFF none, [])

/-- Decoding the words of a well-formed instruction that has a code of its own gives the instruction back, with every
operand, and leaves the bytes after it. -/
def Obligations.decode_of_encode : Prop :=
  ∀ (i : Instr) (rest : List Byte), i.wf = true → i.isPseudo = false → decode (encode i ++ rest) = .ok (i, rest)

/-- What the decoder answers is well formed, has a code of its own, is as long as its words, and its words decode to it
again (so only the ignored bit of an 8-bit `mem`, R137, is lost). -/
def Obligations.encode_of_decode : Prop :=
  ∀ (bytes rest : List Byte) (i : Instr), decode bytes = .ok (i, rest) →
    i.wf = true ∧ i.isPseudo = false ∧ decode (encode i) = .ok (i, []) ∧
      ∃ pre, bytes = pre ++ rest ∧ pre.length = (encode i).length

/-- R122: the first byte alone gives the length. -/
def Obligations.first_byte_gives_length : Prop :=
  ∀ (b : Byte) (n : Nat) (rest : List Byte), lengthOf b = some n → n ≤ rest.length + 1 →
    ∃ i, decode (b :: rest) = .ok (i, rest.drop (n - 1))

/-! ### Transfer instructions -/

/-- R161, R163, R164, R129: the stacked instructions. In a run of one group only the first writes. -/
def Obligations.stacked_immediates : Prop :=
  ∀ (s : State) (n : Nibble) (m : Byte), s.Inv →
    (∃ t, exec (.movAImm n) s = .next { t with stacked := .groupA } ∧
      Does s (.next t) { s.quiet 1 with words := if s.stacked = .groupA then [] else [s.regWord .a n] }) ∧
    (∃ t, exec (.movXaImm m) s = .next { t with stacked := .groupA } ∧
      Does s (.next t) { s.quiet 2 with words := if s.stacked = .groupA then [] else s.xaWords m }) ∧
    (∃ t, exec (.movHlImm m) s = .next { t with stacked := .groupB } ∧
      Does s (.next t) { s.quiet 2 with words := if s.stacked = .groupB then [] else pairWords s.regBank .hl m })

/-- R162, R165, R177 to R180, R188, R189: moves and exchanges between registers. -/
def Obligations.register_moves : Prop :=
  ∀ (s : State) (r : Reg) (p : Rp) (q : RpP) (n : Nibble) (m : Byte), s.Inv →
    Does s (exec (.movReg1Imm r n) s) { s.quiet 2 with words := [s.regWord r n] } ∧
    Does s (exec (.movRp2Imm p m) s) { s.quiet 2 with words := pairWords s.regBank p m } ∧
    Does s (exec (.movAReg r) s) { s.quiet 2 with words := [s.regWord .a (s.getReg r)] } ∧
    Does s (exec (.movXaRp q) s) { s.quiet 2 with words := s.xaWords (s.getRpP q) } ∧
    Does s (exec (.movReg1A r) s) { s.quiet 2 with words := [s.regWord r (s.getReg .a)] } ∧
    Does s (exec (.movRpXa q) s) { s.quiet 2 with words := s.rpWords q (s.getPair .xa) } ∧
    Does s (exec (.xchAReg1 r) s)
      { s.quiet 1 with words := [s.regWord .a (s.getReg r), s.regWord r (s.getReg .a)] } ∧
    Does s (exec (.xchXaRp q) s)
      { s.quiet 2 with words := s.xaWords (s.getRpP q) ++ s.rpWords q (s.getPair .xa) }

/-- R166, R169, R170, R173, R174, R386, R387: loads from data memory, ports and peripheral registers. An operand at
FB0H-FBFH holds off interrupts for the next boundary (R435; that reads count is decision D13, log 19). The low bit of an
8-bit mem is ignored (D7, log 52). -/
def Obligations.memory_loads : Prop :=
  ∀ (s : State) (q : Rpa1) (m : Byte) (n : Nibble), s.Inv →
    Does s (exec .movAHl s) { s.quiet 1 with words := [s.regWord .a (s.read4 s.eaHl)], operand := some s.eaHl } ∧
    Does s (exec (.movARpa1 q) s)
      { s.quiet 1 with words := [s.regWord .a (s.read4 (s.eaRpa1 q))], operand := some (s.eaRpa1 q) } ∧
    Does s (exec .movXaHl s) { s.quiet 2 with words := s.xaWords (s.read8 s.eaHl8), operand := some s.eaHl8 } ∧
    Does s (exec (.movAMem m) s)
      { s.quiet 2 with words := [s.regWord .a (s.read4 (s.eaMem m))], operand := some (s.eaMem m) } ∧
    Does s (exec (.movXaMem m) s)
      { s.quiet 2 with words := s.xaWords (s.read8 (s.eaMem8 m)), operand := some (s.eaMem8 m) } ∧
    Does s (exec (.inAPort n) s)
      { s.quiet 2 with words := [s.regWord .a (s.read4 (s.eaMem (0xF#4 ++ n)))],
                       operand := some (s.eaMem (0xF#4 ++ n)) } ∧
    Does s (exec .inXaPort s)
      { s.quiet 2 with words := s.xaWords (s.read8 (s.eaMem 0xF4)), operand := some (s.eaMem 0xF4) }

/-- R171, R172, R175, R176, R388, R389: stores. Outside the peripheral area the word is stored where RAM is built in; that
it is lost elsewhere is decision D5 (R96, log 7). In the peripheral area the store is the write of the peripheral register.
An operand at FB0H-FBFH holds off interrupts for the next boundary (R435, D13, log 19). The low bit of an 8-bit mem is
ignored (D7, log 52). -/
def Obligations.memory_stores : Prop :=
  ∀ (s : State) (m : Byte) (n : Nibble), s.Inv →
    (∀ i a c, (i, a, c) ∈ [(Instr.movHlA, s.eaHl, 1), (.movMemA m, s.eaMem m, 2),
        (.outPortA n, s.eaMem (0xF#4 ++ n), 2)] →
      (isIo a = false →
        Does s (exec i s) { s.quiet c with words := ramWords a (s.getReg .a), operand := some a }) ∧
      (isIo a = true → ∀ u, (s.touch a).ioWrite4 a (s.getReg .a) = .next u → exec i s = .next (u.after c))) ∧
    (∀ i a, (i, a) ∈ [(Instr.movHlXa, s.eaHl8), (.movMemXa m, s.eaMem8 m), (.outPortXa, s.eaMem 0xF4)] →
      (isIo a = false →
        Does s (exec i s) { s.quiet 2 with words := ramWords8 a (s.getPair .xa), operand := some a }) ∧
      (isIo a = true → ∀ u, (s.touch a).ioWrite8 a (s.getPair .xa) = .next u → exec i s = .next (u.after 2)))

/-- R181, R184 to R187: exchanges with data memory. The register gets the word read before the write; in the peripheral area
it is the register of the bank in force at the start, also where the write changes RBE (DEDUCED, log 45). A write where no
RAM is built in is lost (D5, log 7). An operand at FB0H-FBFH holds off interrupts (R435, D13, log 19). The low bit of an
8-bit mem is ignored (D7, log 52). -/
def Obligations.memory_exchanges : Prop :=
  ∀ (s : State) (q : Rpa1) (m : Byte), s.Inv →
    (∀ i a c, (i, a, c) ∈ [(Instr.xchAHl, s.eaHl, 1), (.xchARpa1 q, s.eaRpa1 q, 1), (.xchAMem m, s.eaMem m, 2)] →
      (isIo a = false →
        Does s (exec i s)
          { s.quiet c with words := s.regWord .a (s.read4 a) :: ramWords a (s.getReg .a), operand := some a }) ∧
      (isIo a = true → ∀ u, (s.touch a).ioWrite4 a (s.getReg .a) = .next u →
        exec i s = .next ((u.setRegIn s.regBank .a (s.read4 a)).after c))) ∧
    (∀ i a, (i, a) ∈ [(Instr.xchXaHl, s.eaHl8), (.xchXaMem m, s.eaMem8 m)] →
      (isIo a = false →
        Does s (exec i s)
          { s.quiet 2 with words := s.xaWords (s.read8 a) ++ ramWords8 a (s.getPair .xa), operand := some a }) ∧
      (isIo a = true → ∀ u, (s.touch a).ioWrite8 a (s.getPair .xa) = .next u →
        exec i s = .next ((u.setPairIn s.regBank .xa (s.read8 a)).after 2)))

/-- R167, R168, R182, R183, R87: `@HL+` and `@HL-`. L steps modulo 16 after the access; the instruction skips when L
becomes 0, or FH. In the exchanges a word stored into L itself is what steps. A write where no RAM is built in is lost (D5,
log 7). The registers are those of the bank in force at the start, also where a peripheral write changes RBE (DEDUCED,
log 45); an operand at FB0H-FBFH holds off interrupts (R435, D13, log 19). PC wraps at 2^PCW (D1, log 36). -/
def Obligations.autoincrement_transfers : Prop :=
  ∀ (s : State) (n : Nat), s.Inv →
    let a := s.eaHl
    let l := s.getReg .l
    let l' := if a = regAddr s.regBank .l then s.getReg .a else l
    ((l = 15 → s.nextHas s.pc n) →
      Does s (exec .movAHlInc s)
        (Effect.skipIf { s.quiet 2 with words := [s.regWord .l (l + 1), s.regWord .a (s.read4 a)], operand := some a }
          s (l == 15) n)) ∧
    ((l = 0 → s.nextHas s.pc n) →
      Does s (exec .movAHlDec s)
        (Effect.skipIf { s.quiet 2 with words := [s.regWord .l (l - 1), s.regWord .a (s.read4 a)], operand := some a }
          s (l == 0) n)) ∧
    (isIo a = false → (l' = 15 → s.nextHas s.pc n) →
      Does s (exec .xchAHlInc s)
        (Effect.skipIf { s.quiet 2 with
          words := s.regWord .l (l' + 1) :: s.regWord .a (s.read4 a) :: ramWords a (s.getReg .a), operand := some a }
          s (l' == 15) n)) ∧
    (isIo a = false → (l' = 0 → s.nextHas s.pc n) →
      Does s (exec .xchAHlDec s)
        (Effect.skipIf { s.quiet 2 with
          words := s.regWord .l (l' - 1) :: s.regWord .a (s.read4 a) :: ramWords a (s.getReg .a), operand := some a }
          s (l' == 0) n)) ∧
    (isIo a = true → ∀ u, (s.touch a).ioWrite4 a (s.getReg .a) = .next u →
      ((l = 15 → s.nextHas s.pc n) → exec .xchAHlInc s = .next
        ((((u.setRegIn s.regBank .a (s.read4 a)).setRegIn s.regBank .l (l + 1)).after 2).skipped (l == 15) n)) ∧
      ((l = 0 → s.nextHas s.pc n) → exec .xchAHlDec s = .next
        ((((u.setRegIn s.regBank .a (s.read4 a)).setRegIn s.regBank .l (l - 1)).after 2).skipped (l == 0) n)))

/-- R190 to R193: table references. The page is that of the incremented PC; BCDE and BCXA give a whole address, cut to PCW
bits (D11, log 36); XA gets the program memory byte. -/
def Obligations.table_references : Prop :=
  ∀ (s : State) (b : Byte), s.Inv →
    (s.romByte (s.pc.toNat / 256 * 256 + (s.getPair .de).toNat) = some b →
      Does s (exec .movtPcde s) { s.quiet 3 with words := s.xaWords b }) ∧
    (s.romByte (s.pc.toNat / 256 * 256 + (s.getPair .xa).toNat) = some b →
      Does s (exec .movtPcxa s) { s.quiet 3 with words := s.xaWords b }) ∧
    (s.romByte (s.getPair .bc ++ s.getPair .de).toNat = some b →
      Does s (exec .movtBcde s) { s.quiet 3 with words := s.xaWords b }) ∧
    (s.romByte (s.getPair .bc ++ s.getPair .xa).toNat = some b →
      Does s (exec .movtBcxa s) { s.quiet 3 with words := s.xaWords b })

/-! ### Arithmetic, logic, increment, compare -/

/-- R224 to R235: AND, OR and XOR, with their codes: the result goes to the first operand, CY is unchanged, no skip.
`XOR A,#0FH` is spelled `NOT A` (R237). The forms with `@HL` read data memory: at FB0H-FBFH that holds off interrupts for
the next boundary (R435; that reads count is decision D13, log 19). -/
def Obligations.logic_operations : Prop :=
  ∀ (s : State) (n : Nibble) (p : RpP) (rest : List Byte), s.Inv →
    let m := s.read4 s.eaHl
    let a := s.getReg .a
    let xa := s.getPair .xa
    let q := s.getRpP p
    (decode (0x99 :: (3#4 ++ n) :: rest) = .ok (.andAImm n, rest) ∧
      Does s (exec (.andAImm n) s) { s.quiet 2 with words := [s.regWord .a (a &&& n)] }) ∧
    (decode (0x90 :: rest) = .ok (.andAHl, rest) ∧
      Does s (exec .andAHl s) { s.quiet 1 with words := [s.regWord .a (a &&& m)], operand := some s.eaHl }) ∧
    (decode (0xAA :: (0b10011#5 ++ p.code) :: rest) = .ok (.andXaRp p, rest) ∧
      Does s (exec (.andXaRp p) s) { s.quiet 2 with words := s.xaWords (xa &&& q) }) ∧
    ((p ≠ .xa → decode (0xAA :: (0b10010#5 ++ p.code) :: rest) = .ok (.andRpXa p, rest)) ∧
      Does s (exec (.andRpXa p) s) { s.quiet 2 with words := s.rpWords p (q &&& xa) }) ∧
    (decode (0x99 :: (4#4 ++ n) :: rest) = .ok (.orAImm n, rest) ∧
      Does s (exec (.orAImm n) s) { s.quiet 2 with words := [s.regWord .a (a ||| n)] }) ∧
    (decode (0xA0 :: rest) = .ok (.orAHl, rest) ∧
      Does s (exec .orAHl s) { s.quiet 1 with words := [s.regWord .a (a ||| m)], operand := some s.eaHl }) ∧
    (decode (0xAA :: (0b10101#5 ++ p.code) :: rest) = .ok (.orXaRp p, rest) ∧
      Does s (exec (.orXaRp p) s) { s.quiet 2 with words := s.xaWords (xa ||| q) }) ∧
    ((p ≠ .xa → decode (0xAA :: (0b10100#5 ++ p.code) :: rest) = .ok (.orRpXa p, rest)) ∧
      Does s (exec (.orRpXa p) s) { s.quiet 2 with words := s.rpWords p (q ||| xa) }) ∧
    ((n ≠ 15 → decode (0x99 :: (5#4 ++ n) :: rest) = .ok (.xorAImm n, rest)) ∧
      Does s (exec (.xorAImm n) s) { s.quiet 2 with words := [s.regWord .a (a ^^^ n)] }) ∧
    (decode (0x99 :: 0x5F :: rest) = .ok (.notA, rest) ∧
      Does s (exec .notA s) { s.quiet 2 with words := [s.regWord .a (a ^^^ 15)] }) ∧
    (decode (0xB0 :: rest) = .ok (.xorAHl, rest) ∧
      Does s (exec .xorAHl s) { s.quiet 1 with words := [s.regWord .a (a ^^^ m)], operand := some s.eaHl }) ∧
    (decode (0xAA :: (0b10111#5 ++ p.code) :: rest) = .ok (.xorXaRp p, rest) ∧
      Does s (exec (.xorXaRp p) s) { s.quiet 2 with words := s.xaWords (xa ^^^ q) }) ∧
    ((p ≠ .xa → decode (0xAA :: (0b10110#5 ++ p.code) :: rest) = .ok (.xorRpXa p, rest)) ∧
      Does s (exec (.xorRpXa p) s) { s.quiet 2 with words := s.rpWords p (q ^^^ xa) })

/-- R236, R237: RORC A rotates A right through CY; NOT A inverts A and leaves CY. -/
def Obligations.accumulator_manipulation : Prop :=
  ∀ (s : State) (rest : List Byte), s.Inv →
    let a := s.getReg .a
    (decode (0x98 :: rest) = .ok (.rorcA, rest) ∧
      Does s (exec .rorcA s)
        { s.quiet 1 with words := [s.regWord .a (nib s.cy (a.getLsbD 3) (a.getLsbD 2) (a.getLsbD 1))],
                         cy := a.getLsbD 0 }) ∧
    (decode (0x99 :: 0x5F :: rest) = .ok (.notA, rest) ∧
      Does s (exec .notA s) { s.quiet 2 with words := [s.regWord .a (15 - a)] })

/-- R216, R217, R222, R223: ADDC and SUBC on register pairs, with their codes. The result is the sum or difference with CY
modulo 256, CY gets the carry or borrow, no skip. -/
def Obligations.pair_arithmetic_with_carry : Prop :=
  ∀ (s : State) (p : RpP) (rest : List Byte), s.Inv →
    let xa := s.getPair .xa
    let q := s.getRpP p
    let c := s.cy.toNat
    (decode (0xAA :: (0b11011#5 ++ p.code) :: rest) = .ok (.addcXaRp p, rest) ∧
      Does s (exec (.addcXaRp p) s)
        { s.quiet 2 with words := s.xaWords (BitVec.ofNat 8 (xa.toNat + q.toNat + c)),
                         cy := decide (256 ≤ xa.toNat + q.toNat + c) }) ∧
    ((p ≠ .xa → decode (0xAA :: (0b11010#5 ++ p.code) :: rest) = .ok (.addcRpXa p, rest)) ∧
      Does s (exec (.addcRpXa p) s)
        { s.quiet 2 with words := s.rpWords p (BitVec.ofNat 8 (q.toNat + xa.toNat + c)),
                         cy := decide (256 ≤ q.toNat + xa.toNat + c) }) ∧
    (decode (0xAA :: (0b11111#5 ++ p.code) :: rest) = .ok (.subcXaRp p, rest) ∧
      Does s (exec (.subcXaRp p) s)
        { s.quiet 2 with words := s.xaWords (xa - q - BitVec.ofNat 8 c), cy := decide (xa.toNat < q.toNat + c) }) ∧
    ((p ≠ .xa → decode (0xAA :: (0b11110#5 ++ p.code) :: rest) = .ok (.subcRpXa p, rest)) ∧
      Does s (exec (.subcRpXa p) s)
        { s.quiet 2 with words := s.rpWords p (q - xa - BitVec.ofNat 8 c), cy := decide (q.toNat < xa.toNat + c) })

/-- R211, R213, R214, R219, R220: ADDS and SUBS on register pairs, with their codes: skip on carry or borrow, CY
unchanged. PC wraps at 2^PCW (D1, log 36). -/
def Obligations.pair_arithmetic_with_skip : Prop :=
  ∀ (s : State) (p : RpP) (n : Byte) (k : Nat) (rest : List Byte), s.Inv →
    let xa := s.getPair .xa
    let q := s.getRpP p
    (decode (0xB9 :: n :: rest) = .ok (.addsXaImm n, rest) ∧
      ((256 ≤ xa.toNat + n.toNat → s.nextHas s.pc k) →
        Does s (exec (.addsXaImm n) s)
          (Effect.skipIf { s.quiet 2 with words := s.xaWords (xa + n) } s (decide (256 ≤ xa.toNat + n.toNat)) k))) ∧
    (decode (0xAA :: (0b11001#5 ++ p.code) :: rest) = .ok (.addsXaRp p, rest) ∧
      ((256 ≤ xa.toNat + q.toNat → s.nextHas s.pc k) →
        Does s (exec (.addsXaRp p) s)
          (Effect.skipIf { s.quiet 2 with words := s.xaWords (xa + q) } s (decide (256 ≤ xa.toNat + q.toNat)) k))) ∧
    ((p ≠ .xa → decode (0xAA :: (0b11000#5 ++ p.code) :: rest) = .ok (.addsRpXa p, rest)) ∧
      ((256 ≤ q.toNat + xa.toNat → s.nextHas s.pc k) →
        Does s (exec (.addsRpXa p) s)
          (Effect.skipIf { s.quiet 2 with words := s.rpWords p (q + xa) } s (decide (256 ≤ q.toNat + xa.toNat)) k))) ∧
    (decode (0xAA :: (0b11101#5 ++ p.code) :: rest) = .ok (.subsXaRp p, rest) ∧
      ((xa.toNat < q.toNat → s.nextHas s.pc k) →
        Does s (exec (.subsXaRp p) s)
          (Effect.skipIf { s.quiet 2 with words := s.xaWords (xa - q) } s (decide (xa.toNat < q.toNat)) k))) ∧
    ((p ≠ .xa → decode (0xAA :: (0b11100#5 ++ p.code) :: rest) = .ok (.subsRpXa p, rest)) ∧
      ((q.toNat < xa.toNat → s.nextHas s.pc k) →
        Does s (exec (.subsRpXa p) s)
          (Effect.skipIf { s.quiet 2 with words := s.rpWords p (q - xa) } s (decide (q.toNat < xa.toNat)) k)))

/-- R210, R212, R218: ADDS and SUBS on A. After an `ADDC A,@HL` without carry or a `SUBC A,@HL` with borrow (R130)
`ADDS A,#n4` does not skip. An `@HL` at FB0H-FBFH holds off interrupts for the next boundary (R435, D13, log 19). PC wraps
at 2^PCW (D1, log 36). -/
def Obligations.accumulator_arithmetic_with_skip : Prop :=
  ∀ (s : State) (n : Nibble) (k : Nat), s.Inv →
    let a := s.getReg .a
    let m := s.read4 s.eaHl
    ((16 ≤ a.toNat + n.toNat ∧ s.addsNoskip = false → s.nextHas s.pc k) →
      Does s (exec (.addsAImm n) s)
        (Effect.skipIf { s.quiet 1 with words := [s.regWord .a (a + n)] } s
          (decide (16 ≤ a.toNat + n.toNat) && !s.addsNoskip) k)) ∧
    ((16 ≤ a.toNat + m.toNat → s.nextHas s.pc k) →
      Does s (exec .addsAHl s)
        (Effect.skipIf { s.quiet 1 with words := [s.regWord .a (a + m)], operand := some s.eaHl } s
          (decide (16 ≤ a.toNat + m.toNat)) k)) ∧
    ((a.toNat < m.toNat → s.nextHas s.pc k) →
      Does s (exec .subsAHl s)
        (Effect.skipIf { s.quiet 1 with words := [s.regWord .a (a - m)], operand := some s.eaHl } s
          (decide (a.toNat < m.toNat)) k))

/-- R215, R221, R130: ADDC and SUBC on A. CY gets the carry or borrow. If the next instruction is an `ADDS A,#n4` it is
skipped after a carry, or without a borrow; otherwise its skip is disabled. That this skip takes one machine cycle is the
model's charge (R130, log 39); an `@HL` at FB0H-FBFH holds off interrupts (R435, D13, log 19). `ROM[pc]` beyond the ROM is in
`named_stops`. PC wraps at 2^PCW (D1, log 36). -/
def Obligations.radix_adjustment : Prop :=
  ∀ (s : State) (r : Nibble) (c skips : Bool) (i : Instr), s.Inv →
    (i, r, c, skips) ∈
      [(Instr.addcAHl, BitVec.ofNat 4 ((s.getReg .a).toNat + (s.read4 s.eaHl).toNat + s.cy.toNat),
          decide (16 ≤ (s.getReg .a).toNat + (s.read4 s.eaHl).toNat + s.cy.toNat),
          decide (16 ≤ (s.getReg .a).toNat + (s.read4 s.eaHl).toNat + s.cy.toNat)),
       (.subcAHl, s.getReg .a - s.read4 s.eaHl - BitVec.ofNat 4 s.cy.toNat,
          decide ((s.getReg .a).toNat < (s.read4 s.eaHl).toNat + s.cy.toNat),
          !decide ((s.getReg .a).toNat < (s.read4 s.eaHl).toNat + s.cy.toNat))] →
    let e : Effect := { s.quiet 1 with words := [s.regWord .a r], cy := c, operand := some s.eaHl }
    ((∃ b, s.romByte s.pc.toNat = some b ∧ b.extractLsb' 4 4 = 6#4) →
      if skips then Does s (exec i s) (e.skipIf s true 1)
      else ∃ t, exec i s = .next { t with addsNoskip := true } ∧ Does s (.next t) e) ∧
    ((∃ b, s.romByte s.pc.toNat = some b ∧ b.extractLsb' 4 4 ≠ 6#4) → Does s (exec i s) e)

/-- R238, R239, R242, R243: INCS and DECS on registers, with their codes: skip when the result is 0, or all ones. PC wraps
at 2^PCW (D1, log 36). -/
def Obligations.register_increment_decrement : Prop :=
  ∀ (s : State) (r : Reg) (p : Rp) (q : RpP) (k : Nat) (rest : List Byte), s.Inv →
    (decode ((0b11000#5 ++ r.code) :: rest) = .ok (.incsReg r, rest) ∧
      ((s.getReg r = 15 → s.nextHas s.pc k) →
        Does s (exec (.incsReg r) s)
          (Effect.skipIf { s.quiet 1 with words := [s.regWord r (s.getReg r + 1)] } s (s.getReg r == 15) k))) ∧
    ((p ≠ .xa → decode ((0b10001#5 ++ p.code ++ 0#1) :: rest) = .ok (.incsRp1 p, rest)) ∧
      ((s.getPair p = 255 → s.nextHas s.pc k) →
        Does s (exec (.incsRp1 p) s)
          (Effect.skipIf { s.quiet 1 with words := pairWords s.regBank p (s.getPair p + 1) } s
            (s.getPair p == 255) k))) ∧
    (decode ((0b11001#5 ++ r.code) :: rest) = .ok (.decsReg r, rest) ∧
      ((s.getReg r = 0 → s.nextHas s.pc k) →
        Does s (exec (.decsReg r) s)
          (Effect.skipIf { s.quiet 1 with words := [s.regWord r (s.getReg r - 1)] } s (s.getReg r == 0) k))) ∧
    (decode (0xAA :: (0b01101#5 ++ q.code) :: rest) = .ok (.decsRp q, rest) ∧
      ((s.getRpP q = 0 → s.nextHas s.pc k) →
        Does s (exec (.decsRp q) s)
          (Effect.skipIf { s.quiet 2 with words := s.rpWords q (s.getRpP q - 1) } s (s.getRpP q == 0) k)))

/-- R240, R241: INCS on a data memory word: skip when it becomes 0. In the peripheral area the incremented value is
written to the peripheral register. A write where no RAM is built in is lost (D5, log 7); an operand at FB0H-FBFH holds off
interrupts (R435, D13, log 19). PC wraps at 2^PCW (D1, log 36). -/
def Obligations.memory_increment : Prop :=
  ∀ (s : State) (m : Byte) (k : Nat), s.Inv →
    ∀ i a, (i, a) ∈ [(Instr.incsHl, s.eaHl), (.incsMem m, s.eaMem m)] →
      (isIo a = false → (s.read4 a = 15 → s.nextHas s.pc k) →
        Does s (exec i s)
          (Effect.skipIf { s.quiet 2 with words := ramWords a (s.read4 a + 1), operand := some a } s
            (s.read4 a == 15) k)) ∧
      (isIo a = true → (s.read4 a = 15 → s.nextHas s.pc k) → ∀ u, (s.touch a).ioWrite4 a (s.read4 a + 1) = .next u →
        exec i s = .next ((u.after 2).skipped (s.read4 a == 15) k))

/-- R244 to R249: SKE skips when the operands are equal and writes no register, memory word or flag. An `@HL` at FB0H-FBFH
holds off interrupts for the next boundary (R435; that reads count is decision D13, log 19). PC wraps at 2^PCW
(D1, log 36). -/
def Obligations.compare_and_skip : Prop :=
  ∀ (s : State) (r : Reg) (n : Nibble) (p : RpP) (k : Nat), s.Inv →
    ∀ i e c, (i, e, c) ∈
      [(Instr.skeRegImm r n, s.quiet 2, s.getReg r == n),
       (.skeHlImm n, { s.quiet 2 with operand := some s.eaHl }, s.read4 s.eaHl == n),
       (.skeAHl, { s.quiet 1 with operand := some s.eaHl }, s.getReg .a == s.read4 s.eaHl),
       (.skeXaHl, { s.quiet 2 with operand := some s.eaHl8 }, s.getPair .xa == s.read8 s.eaHl8),
       (.skeAReg r, s.quiet 2, s.getReg .a == s.getReg r),
       (.skeXaRp p, s.quiet 2, s.getPair .xa == s.getRpP p)] →
      (c = true → s.nextHas s.pc k) → Does s (exec i s) (e.skipIf s c k)

/-! ### Bit manipulation -/

/-- R280 to R283: the carry flag instructions, with their codes. PC wraps at 2^PCW (D1, log 36). -/
def Obligations.carry_flag_instructions : Prop :=
  ∀ (s : State) (k : Nat) (rest : List Byte), s.Inv →
    (decode (0xE7 :: rest) = .ok (.set1Cy, rest) ∧ Does s (exec .set1Cy s) { s.quiet 1 with cy := true }) ∧
    (decode (0xE6 :: rest) = .ok (.clr1Cy, rest) ∧ Does s (exec .clr1Cy s) { s.quiet 1 with cy := false }) ∧
    (decode (0xD7 :: rest) = .ok (.sktCy, rest) ∧
      ((s.cy = true → s.nextHas s.pc k) → Does s (exec .sktCy s) (Effect.skipIf (s.quiet 1) s s.cy k))) ∧
    (decode (0xD6 :: rest) = .ok (.not1Cy, rest) ∧ Does s (exec .not1Cy s) { s.quiet 1 with cy := !s.cy })

/-- R194, R293 to R295: CY gets the addressed bit, or its AND, OR, XOR with CY. An operand at FB0H-FBFH holds off interrupts
for the next boundary (R435; that reads count is decision D13, log 19). -/
def Obligations.bit_to_carry : Prop :=
  ∀ (s : State) (hi : Bool) (f g d : Nibble) (b : BitVec 2), s.Inv →
    ∀ i a v, (i, a, v) ∈
      [(Instr.mov1CyFmem hi f b, fmemAddr hi f, s.readBit (fmemAddr hi f) b),
       (.mov1CyPmem g, s.pmemAddr g, s.readBit (s.pmemAddr g) s.pmemBit),
       (.mov1CyHmem d b, s.hmemAddr d, s.readBit (s.hmemAddr d) b),
       (.and1Fmem hi f b, fmemAddr hi f, s.cy && s.readBit (fmemAddr hi f) b),
       (.and1Pmem g, s.pmemAddr g, s.cy && s.readBit (s.pmemAddr g) s.pmemBit),
       (.and1Hmem d b, s.hmemAddr d, s.cy && s.readBit (s.hmemAddr d) b),
       (.or1Fmem hi f b, fmemAddr hi f, s.cy || s.readBit (fmemAddr hi f) b),
       (.or1Pmem g, s.pmemAddr g, s.cy || s.readBit (s.pmemAddr g) s.pmemBit),
       (.or1Hmem d b, s.hmemAddr d, s.cy || s.readBit (s.hmemAddr d) b),
       (.xor1Fmem hi f b, fmemAddr hi f, s.cy ^^ s.readBit (fmemAddr hi f) b),
       (.xor1Pmem g, s.pmemAddr g, s.cy ^^ s.readBit (s.pmemAddr g) s.pmemBit),
       (.xor1Hmem d b, s.hmemAddr d, s.cy ^^ s.readBit (s.hmemAddr d) b)] →
      Does s (exec i s) { s.quiet 2 with cy := v, operand := some a }

/-- R195, R284 to R287: a bit is written: in RAM the addressed bit alone changes; that a write to unmapped space is lost is
decision D5 (R96, log 7); in the peripheral area it is the bit write of the peripheral register (a 1 to bit 3 of FB7H or
FA8H: `peripheral_writes`). An operand at FB0H-FBFH holds off interrupts (R435, D13, log 19). A setting that the manual
prohibits, written bit by bit, goes through as in `peripheral_writes` (logs 13, 14, 29). -/
def Obligations.bit_writes : Prop :=
  ∀ (s : State) (m : Byte) (hi : Bool) (f g d : Nibble) (b : BitVec 2), s.Inv →
    ∀ i a k v, (i, a, k, v) ∈
      [(Instr.set1Mem m b, s.eaMem m, b, true), (.set1Fmem hi f b, fmemAddr hi f, b, true),
       (.set1Pmem g, s.pmemAddr g, s.pmemBit, true), (.set1Hmem d b, s.hmemAddr d, b, true),
       (.clr1Mem m b, s.eaMem m, b, false), (.clr1Fmem hi f b, fmemAddr hi f, b, false),
       (.clr1Pmem g, s.pmemAddr g, s.pmemBit, false), (.clr1Hmem d b, s.hmemAddr d, b, false),
       (.mov1ToFmem hi f b, fmemAddr hi f, b, s.cy), (.mov1ToPmem g, s.pmemAddr g, s.pmemBit, s.cy),
       (.mov1ToHmem d b, s.hmemAddr d, b, s.cy)] →
      (isIo a = false →
        Does s (exec i s) { s.quiet 2 with words := ramWords a (withBit (s.ramRead a) k v), operand := some a }) ∧
      (isIo a = true → (v = true → k = 3 → a ≠ 0xFB7 ∧ a ≠ 0xFA8) →
        ∃ u, (s.touch a).ioWriteBit a k v = .next u ∧ exec i s = .next (u.after 2))

/-- R288 to R291: SKT skips when the bit is 1, SKF when it is 0; nothing is written. An operand at FB0H-FBFH holds off
interrupts for the next boundary (R435; that reads count is decision D13, log 19). PC wraps at 2^PCW (D1, log 36). -/
def Obligations.bit_tests : Prop :=
  ∀ (s : State) (m : Byte) (hi : Bool) (f g d : Nibble) (b : BitVec 2) (n : Nat), s.Inv →
    ∀ i a c, (i, a, c) ∈
      [(Instr.sktMem m b, s.eaMem m, s.readBit (s.eaMem m) b),
       (.sktFmem hi f b, fmemAddr hi f, s.readBit (fmemAddr hi f) b),
       (.sktPmem g, s.pmemAddr g, s.readBit (s.pmemAddr g) s.pmemBit),
       (.sktHmem d b, s.hmemAddr d, s.readBit (s.hmemAddr d) b),
       (.skfMem m b, s.eaMem m, !s.readBit (s.eaMem m) b),
       (.skfFmem hi f b, fmemAddr hi f, !s.readBit (fmemAddr hi f) b),
       (.skfPmem g, s.pmemAddr g, !s.readBit (s.pmemAddr g) s.pmemBit),
       (.skfHmem d b, s.hmemAddr d, !s.readBit (s.hmemAddr d) b)] →
      (c = true → s.nextHas s.pc n) →
      Does s (exec i s) (Effect.skipIf { s.quiet 2 with operand := some a } s c n)

/-- R292: SKTCLR skips when the bit is 1 and clears it; when it is 0 nothing happens but the cycles. With either value an
operand at FB0H-FBFH holds off interrupts for the next boundary (R435, D13, log 19); a write to unmapped space is lost (D5,
log 7). PC wraps at 2^PCW (D1, log 36). -/
def Obligations.test_and_clear : Prop :=
  ∀ (s : State) (hi : Bool) (f g d : Nibble) (b : BitVec 2) (n : Nat), s.Inv →
    ∀ i a k, (i, a, k) ∈
      [(Instr.sktclrFmem hi f b, fmemAddr hi f, b), (.sktclrPmem g, s.pmemAddr g, s.pmemBit),
       (.sktclrHmem d b, s.hmemAddr d, b)] →
      (s.readBit a k = false → Does s (exec i s) { s.quiet 2 with operand := some a }) ∧
      (s.readBit a k = true → s.nextHas s.pc n → isIo a = false →
        Does s (exec i s)
          (Effect.skipIf { s.quiet 2 with words := ramWords a (withBit (s.ramRead a) k false), operand := some a } s
            true n)) ∧
      (s.readBit a k = true → s.nextHas s.pc n → isIo a = true →
        ∃ u, (s.touch a).ioWriteBit a k false = .next u ∧
          exec i s = .next ((u.after 2).skipped true n))

/-! ### Interrupt control, CPU control, SEL -/

/-- R380 to R383: EI and DI write IME, EI IExxx and DI IExxx the named enable flag, and nothing else; they are interrupt
control instructions (R435). No bit write of data memory changes IME (R39, R98: operated by EI and DI only; that such a write
is discarded is the treatment suggested in U7, log 8). That they hold off interrupts is R435, by decision D13 (log 19). -/
def Obligations.enable_and_disable : Prop :=
  ∀ (s : State),
    exec .ei s = .next ({ s with ints := { s.ints with ime := true } }.held.after 2) ∧
    exec .di s = .next ({ s with ints := { s.ints with ime := false } }.held.after 2) ∧
    (∀ i e, (i, e) ∈
      [(Instr.eiIeBt, { s.ints.ie with bt := true }), (.diIeBt, { s.ints.ie with bt := false }),
       (.eiIeW, { s.ints.ie with w := true }), (.diIeW, { s.ints.ie with w := false }),
       (.eiIeT0, { s.ints.ie with t0 := true }), (.diIeT0, { s.ints.ie with t0 := false }),
       (.eiIeCsi, { s.ints.ie with csi := true }), (.diIeCsi, { s.ints.ie with csi := false }),
       (.eiIe0, { s.ints.ie with int0 := true }), (.diIe0, { s.ints.ie with int0 := false }),
       (.eiIe2, { s.ints.ie with int2 := true }), (.diIe2, { s.ints.ie with int2 := false }),
       (.eiIe4, { s.ints.ie with int4 := true }), (.diIe4, { s.ints.ie with int4 := false }),
       (.eiIeT1, { s.ints.ie with t1 := true }), (.diIeT1, { s.ints.ie with t1 := false }),
       (.eiIe1, { s.ints.ie with int1 := true }), (.diIe1, { s.ints.ie with int1 := false })] →
      exec i s = .next ({ s with ints := { s.ints with ie := e } }.held.after 2)) ∧
    ∀ (a : DAddr) (b : BitVec 2) (x : Bool) (t : State), s.ioWriteBit a b x = .next t → t.ints.ime = s.ints.ime

/-- R390, R391, R451: HALT sets PCC.2 and stops the CPU; STOP sets PCC.3 on the main system clock, and is refused on the
subsystem clock (U14; refusing it also with SCC.0 = 0 while the CPU clock is still fXT/4 is the model's choice, log 51).
R512: a 4-bit write of PCC sets the CPU clock selection and, with exactly one of bits 3 and 2, the standby mode (DEDUCED by
R512, log 44). A bit write of FB3H by any other instruction is discarded (R42; suggested in U7, log 8). HALT and STOP
hold off interrupts, as interrupt control instructions (R435, D13, log 19). -/
def Obligations.halt_and_stop : Prop :=
  ∀ (s : State),
    exec .halt s =
      .next ({ s with standby := .halt, clk := { s.clk with pcc := withBit s.clk.pcc 2 true } }.held.after 2) ∧
    (s.clk.scc0 = false → s.clk.phi.sub = false →
      exec .stop s =
        .next ({ s with standby := .stop, clk := { s.clk with pcc := withBit s.clk.pcc 3 true } }.held.after 2)) ∧
    (s.clk.scc0 = true ∨ s.clk.phi.sub = true → exec .stop s = .refused .stopOnSubclock) ∧
    (∀ b x, s.ioWriteBit 0xFB3 b x = .next s) ∧
    ∀ v : Nibble,
      (v.getLsbD 3 = v.getLsbD 2 → s.ioWrite4 0xFB3 v = .next { s with clk := { s.clk with pcc := v &&& 3 } }) ∧
      (v.getLsbD 3 = false → v.getLsbD 2 = true →
        s.ioWrite4 0xFB3 v = .next { s with standby := .halt, clk := { s.clk with pcc := v } }) ∧
      (v.getLsbD 3 = true → v.getLsbD 2 = false → s.clk.scc0 = false → s.clk.phi.sub = false →
        s.ioWrite4 0xFB3 v = .next { s with standby := .stop, clk := { s.clk with pcc := v } }) ∧
      (v.getLsbD 3 = true → v.getLsbD 2 = false → s.clk.scc0 = true ∨ s.clk.phi.sub = true →
        s.ioWrite4 0xFB3 v = .refused .stopOnSubclock)

/-- R394 to R396: NOP spends one machine cycle; SEL writes RBS or MBS; an MBS that U5 prohibits is held
(log 13). -/
def Obligations.nop_and_bank_selection : Prop :=
  ∀ (s : State) (n : BitVec 2) (m : Nibble), s.Inv →
    Does s (exec .nop s) (s.quiet 1) ∧
    Leads s { s with rbs := n } (exec (.selRb n) s) (s.quiet 2) ∧
    Leads s { s with mbs := m } (exec (.selMb m) s) (s.quiet 2)

/-! ### Branches, subroutines, stack -/

/-- R321 to R328, R330 to R332: the branches. Only PC changes; target bits above PCW-1 are dropped (D11, log 36). `BR addr` and
`BR addr1` are taken as the three-byte branch, and a TBR entry accounts for two of the three cycles of its GETI (logs 34,
35). The relative branches wrap at 2^PCW (D1, log 36). -/
def Obligations.branches : Prop :=
  ∀ (s : State) (t : BitVec 14) (t1 : BitVec 15) (c : BitVec 12) (k : Nibble), s.Inv →
    let page := s.pc.toNat / 256 * 256
    Does s (exec (.br t) s) { s.quiet 3 with pc := s.truncPc t.toNat } ∧
    (s.sbs.getLsbD 3 = false → Does s (exec (.bra t1) s) { s.quiet 3 with pc := s.truncPc t1.toNat }) ∧
    Does s (exec (.brFwd k) s) { s.quiet 2 with pc := s.truncPc (s.pc.toNat + k.toNat) } ∧
    Does s (exec (.brBwd k) s) { s.quiet 2 with pc := s.truncPc (s.pc + (BitVec.signExtend 14 (15#4 ++ k))).toNat } ∧
    Does s (exec (.brcb c) s) { s.quiet 2 with pc := s.pc.extractLsb' 12 2 ++ c } ∧
    Does s (exec .brPcde s) { s.quiet 3 with pc := s.truncPc (page + (s.getPair .de).toNat) } ∧
    Does s (exec .brPcxa s) { s.quiet 3 with pc := s.truncPc (page + (s.getPair .xa).toNat) } ∧
    Does s (exec .brBcde s) { s.quiet 3 with pc := s.truncPc (s.getPair .bc ++ s.getPair .de).toNat } ∧
    Does s (exec .brBcxa s) { s.quiet 3 with pc := s.truncPc (s.getPair .bc ++ s.getPair .xa).toNat } ∧
    Does s (exec (.brAuto t) s) { s.quiet 3 with pc := s.truncPc t.toNat } ∧
    Does s (exec (.brAuto1 t) s) { s.quiet 3 with pc := s.truncPc t.toNat } ∧
    Does s (exec (.tbr t) s) { s.quiet 2 with pc := s.truncPc t.toNat }

/-- R350, R352, R354, R348: CALL, CALLF and a TCALL entry in Mk I mode: four nibbles of return address, MBE and RBE go
below SP, SP goes down by 4, PC goes to the target. The model's choices here: where SBS selects bank 2 or 3, a setting that
U4 prohibits, the frame is lost (DESIGN CHOICE, log 13); the target is cut to PCW bits (D11, log 36); TCALL leaves one of its
cycles to GETI (DESIGN CHOICE, log 34). -/
def Obligations.calls_in_mk_one_mode : Prop :=
  ∀ (s : State) (t : BitVec 14) (f : BitVec 11), s.Inv → s.sbs.getLsbD 3 = true →
    let frame := s.stackWord (-1) (s.pc.extractLsb' 4 4) ++ s.stackWord (-2) (s.pc.extractLsb' 0 4) ++
      s.stackWord (-3) (nib s.mbe s.rbe (s.pc.getLsbD 13) (s.pc.getLsbD 12)) ++ s.stackWord (-4) (s.pc.extractLsb' 8 4)
    let u := { s with sp := s.sp - 4 }
    Leads s u (exec (.call t) s) { s.quiet 3 with words := frame, pc := s.truncPc t.toNat } ∧
    Leads s u (exec (.callf f) s) { s.quiet 2 with words := frame, pc := s.truncPc f.toNat } ∧
    Leads s u (exec (.tcall t) s) { s.quiet 2 with words := frame, pc := s.truncPc t.toNat }

/-- R351 to R354, R348: CALL, CALLA, CALLF and a TCALL entry in Mk II mode: six nibbles, of which the one at SP-1 and two
bits of the one at SP-2 hold free values `x`, `y` (U8): for some values of them, all the rest is as the rule says. The
model's choices here are those of `calls_in_mk_one_mode`: a frame in bank 2 or 3 is lost (U4; DESIGN CHOICE, log 13), the
target is cut to PCW bits (D11, log 36), TCALL leaves one of its cycles to GETI (DESIGN CHOICE, log 34). -/
def Obligations.calls_in_mk_two_mode : Prop :=
  ∀ (s : State) (t : BitVec 14) (t1 : BitVec 15) (f : BitVec 11), s.Inv → s.sbs.getLsbD 3 = false →
    ∃ (x : Nibble) (y : BitVec 2),
      let frame := s.stackWord (-1) x ++ s.stackWord (-2) (y ++ BitVec.ofBool s.mbe ++ BitVec.ofBool s.rbe) ++
        s.stackWord (-3) (s.pc.extractLsb' 4 4) ++ s.stackWord (-4) (s.pc.extractLsb' 0 4) ++
        s.stackWord (-5) (nib false false (s.pc.getLsbD 13) (s.pc.getLsbD 12)) ++ s.stackWord (-6) (s.pc.extractLsb' 8 4)
      let u := { s with sp := s.sp - 6 }
      Leads s u (exec (.call t) s) { s.quiet 4 with words := frame, pc := s.truncPc t.toNat } ∧
      Leads s u (exec (.calla t1) s) { s.quiet 3 with words := frame, pc := s.truncPc t1.toNat } ∧
      Leads s u (exec (.callf f) s) { s.quiet 3 with words := frame, pc := s.truncPc f.toNat } ∧
      Leads s u (exec (.tcall t) s) { s.quiet 3 with words := frame, pc := s.truncPc t.toNat }

/-- R355, R356, R350, R351: RET and RETS load PC, MBE and RBE from the frame of the mode in force and raise SP by its
size; RETS then skips the instruction at the restored PC. What the stack gives where SBS selects bank 2 or 3, a setting that
U4 prohibits, is a free value (DESIGN CHOICE, log 13). PC wraps at 2^PCW (D1, log 36). -/
def Obligations.returns : Prop :=
  ∀ (s : State) (n : Nat), s.Inv →
    let pc := s.truncPc ((s.stk 1).extractLsb' 0 2 ++ s.stk 0 ++ s.stk 3 ++ s.stk 2).toNat
    let u := if s.sbs.getLsbD 3 then { s with sp := s.sp + 4, mbe := (s.stk 1).getLsbD 3, rbe := (s.stk 1).getLsbD 2 }
      else { s with sp := s.sp + 6, mbe := (s.stk 4).getLsbD 1, rbe := (s.stk 4).getLsbD 0 }
    Leads s u (exec .ret s) { s.quiet 3 with pc := pc } ∧
    (s.nextHas pc n → Leads s u (exec .rets s) (Effect.skipIf { s.quiet 3 with pc := pc } s true n))

/-- R357: RETI loads PC and the whole PSW from six nibbles in both modes, the skip state included, and raises SP by 6;
nothing else changes. Which of SK2, SK1, SK0 stands for which skip state is decision D3 (R31, log 10), and that SK1 = SK2 = 1
restores group A is U10 as R357 takes it (log 11). A stack in bank 2 or 3 (U4) gives free values (DESIGN CHOICE, log 13). PC
is cut to PCW bits (D1, log 36). -/
def Obligations.return_from_interrupt : Prop :=
  ∀ (s : State), s.Inv →
    exec .reti s = .next { s with
      pc := s.truncPc ((s.stk 1).extractLsb' 0 2 ++ s.stk 0 ++ s.stk 3 ++ s.stk 2).toNat,
      ist := (s.stk 4).extractLsb' 2 2, mbe := (s.stk 4).getLsbD 1, rbe := (s.stk 4).getLsbD 0,
      cy := (s.stk 5).getLsbD 3,
      stacked := if (s.stk 5).getLsbD 1 then .groupA else if (s.stk 5).getLsbD 2 then .groupB else .none,
      addsNoskip := (s.stk 5).getLsbD 0,
      sp := s.sp + 6, cycles := s.cycles + 3 }

/-- R358 to R361, with their codes: PUSH and POP of a register pair and of the bank select registers. The model's choices here:
where SBS selects bank 2 or 3, a setting that U4 prohibits, a push is lost and a pop gives free values; POP BS holds an MBS
that U5 prohibits (DESIGN CHOICE, log 13). -/
def Obligations.push_and_pop : Prop :=
  ∀ (s : State) (p : Rp) (rest : List Byte), s.Inv →
    (decode ((0b01001#5 ++ p.code ++ 1#1) :: rest) = .ok (.pushRp p, rest) ∧
      Leads s { s with sp := s.sp - 2 } (exec (.pushRp p) s)
        { s.quiet 1 with words := s.stackWord (-1) (s.getReg (rpRegs p).1) ++ s.stackWord (-2) (s.getReg (rpRegs p).2) }) ∧
    (decode ((0b01001#5 ++ p.code ++ 0#1) :: rest) = .ok (.popRp p, rest) ∧
      Leads s { s with sp := s.sp + 2 } (exec (.popRp p) s)
        { s.quiet 1 with words := [s.regWord (rpRegs p).1 (s.stk 1), s.regWord (rpRegs p).2 (s.stk 0)] }) ∧
    (decode (0x99 :: 0x07 :: rest) = .ok (.pushBs, rest) ∧
      Leads s { s with sp := s.sp - 2 } (exec .pushBs s)
        { s.quiet 2 with words := s.stackWord (-1) s.mbs ++ s.stackWord (-2) (0#2 ++ s.rbs) }) ∧
    (decode (0x99 :: 0x06 :: rest) = .ok (.popBs, rest) ∧
      Leads s { s with sp := s.sp + 2, mbs := s.stk 1, rbs := (s.stk 0).extractLsb' 0 2 } (exec .popBs s) (s.quiet 2))

/-- R355 after R352 (R350, R351): a return takes back what the call saved. With the stack in RAM (SBS selects bank 0 or 1),
RET after CALL gives PC, MBE, RBE and SP of before the call, in both modes, and every word outside the frame is as
before. -/
def Obligations.return_undoes_call : Prop :=
  ∀ (s t u : State) (a : BitVec 14), s.Inv → s.sbs.getLsbD 1 = false →
    exec (.call a) s = .next t → exec .ret t = .next u →
    u.pc = s.pc ∧ u.mbe = s.mbe ∧ u.rbe = s.rbe ∧ u.sp = s.sp ∧
      ∀ x, (∀ k ∈ ([-1, -2, -3, -4, -5, -6] : List (BitVec 8)), x ≠ s.stkAddr k) → u.ramRead x = s.ramRead x

/-! ### GETI and the codes without an instruction -/

/-- R400 to R405: GETI on an entry at `a` = 20H + 2t or 40H + 2t. A TBR entry branches in three cycles, a TCALL entry
calls in three or four; a two-byte instruction of two cycles is executed as itself, one cycle added, with the stacked state
cleared first (R405); a pair of one-byte instructions is executed one after the other. Any other entry is refused by name
(R404, U11). That bits 7-6 of the entry are 00 for TBR and 01 for TCALL is decision D9, and that one cycle is charged to GETI
itself is the model's choice (log 34); a target is cut to PCW bits (D11, log 36). -/
def Obligations.geti_runs_its_entry : Prop :=
  ∀ (s : State) (e0 e1 : Byte) (g : Instr) (a : Nat), s.Inv →
    ((∃ t : BitVec 4, g = .getiLow t ∧ a = 0x20 + 2 * t.toNat) ∨
      (∃ t : BitVec 5, g = .getiHigh t ∧ a = 0x40 + 2 * t.toNat)) →
    s.romByte a = some e0 → s.romByte (a + 1) = some e1 →
    let target : BitVec 14 := e0.extractLsb' 0 6 ++ e1
    (e0.extractLsb' 6 2 = 0#2 → Does s (exec g s) { s.quiet 3 with pc := s.truncPc target.toNat }) ∧
    (e0.extractLsb' 6 2 = 1#2 → exec g s = exec (.tcall target) { s with cycles := s.cycles + 1 } ∧
      ∃ t, exec g s = .next t ∧ t.pc = s.truncPc target.toNat ∧
        t.cycles = s.cycles + (if s.sbs.getLsbD 3 then 3 else 4)) ∧
    (∀ i, decode [e0, e1] = .ok (i, []) → lengthOf e0 = some 2 → e0.extractLsb' 4 4 ≠ 4#4 → e0.extractLsb' 4 4 ≠ 5#4 →
      i ≠ .brPcde → i ≠ .brPcxa → i ≠ .brBcde → i ≠ .brBcxa → (∀ b1 b2, i ≠ .unassigned b1 b2) →
      exec g s = exec i (s.after 1)) ∧
    (∀ i j, allowedPair e0 e1 = true → decode [e0, e1] = .ok (i, [e1]) → decode [e1] = .ok (j, []) →
      exec g s = andThen (exec i (s.after 1)) (exec j)) ∧
    (e0.getLsbD 7 = true →
      (lengthOf e0 = none ∨ lengthOf e0 = some 3 ∨ (lengthOf e0 = some 1 ∧ allowedPair e0 e1 = false) ∨
        (lengthOf e0 = some 2 ∧ ∃ i, decode [e0, e1] = .ok (i, []) ∧
          (i = .brPcde ∨ i = .brPcxa ∨ i = .brBcde ∨ i = .brBcxa ∨ ∃ b1 b2, i = .unassigned b1 b2))) →
      exec g s = .refused (.getiEntry e0 e1))

/-- The stops. R148, U1: an unassigned code is refused by name, whatever the state (D8, log 33). U9 (R322, R353): BRA and
CALLA are refused in Mk I mode (log 31). R82, U2: a read of program memory beyond the ROM, which only the μPD750066 can
reach, stops the machine (D4, log 32): the table references, the byte after ADDC A,@HL and SUBC A,@HL, the first byte of an
instruction that is to be skipped, by every instruction that can skip, and the fetch of an instruction's bytes. An unassigned
first byte there cannot be skipped over (R148, D8, log 33). INCS and XCH on a peripheral register stop there once the write
has gone through. GETI entries and vectors are never beyond the ROM. The address that RETS restores comes from the stack, a
free value in bank 2 or 3 (U4, log 13); PC wraps at 2^PCW (D1, log 36). -/
def Obligations.named_stops : Prop :=
  ∀ (s : State) (t : BitVec 15) (r : Reg) (p : Rp) (q : RpP) (n : Nibble) (m : Byte) (hi : Bool) (f g d : Nibble)
    (b : BitVec 2) (b1 : Byte) (b2 : Option Byte), s.Inv →
    let mem := s.read4 s.eaHl
    let l := s.getReg .l
    let l' := if s.eaHl = regAddr s.regBank .l then s.getReg .a else l
    let xa := s.getPair .xa
    let rq := s.getRpP q
    let ret := s.truncPc ((s.stk 1).extractLsb' 0 2 ++ s.stk 0 ++ s.stk 3 ++ s.stk 2).toNat
    exec (.unassigned b1 b2) s = .refused (.unassigned b1 b2) ∧
    (s.sbs.getLsbD 3 = true → exec (.bra t) s = .refused .mkIIOnly ∧ exec (.calla t) s = .refused .mkIIOnly) ∧
    (∀ a, s.romByte a = none →
      s.chip.part = .upd750066 ∧ s.romAddr a = a % 0x2000 ∧ 0x1800 ≤ s.romAddr a) ∧
    (∀ a < 0x80, s.romByte a ≠ none) ∧
    (∀ i a, (i, a) ∈
      [(Instr.movtPcde, s.pc.toNat / 256 * 256 + (s.getPair .de).toNat),
       (.movtPcxa, s.pc.toNat / 256 * 256 + xa.toNat),
       (.movtBcde, (s.getPair .bc ++ s.getPair .de).toNat), (.movtBcxa, (s.getPair .bc ++ xa).toNat),
       (.addcAHl, s.pc.toNat), (.subcAHl, s.pc.toNat)] →
      s.romByte a = none → exec i s = .fault (.beyondRom (s.romAddr a))) ∧
    (∀ i pc c, (i, pc, c) ∈
      [(Instr.rets, ret, true),
       (.incsReg r, s.pc, s.getReg r == 15), (.incsRp1 p, s.pc, s.getPair p == 255),
       (.decsReg r, s.pc, s.getReg r == 0), (.decsRp q, s.pc, rq == 0),
       (.incsHl, s.pc, !isIo s.eaHl && mem == 15),
       (.incsMem m, s.pc, !isIo (s.eaMem m) && s.read4 (s.eaMem m) == 15),
       (.movAHlInc, s.pc, l == 15), (.movAHlDec, s.pc, l == 0),
       (.xchAHlInc, s.pc, !isIo s.eaHl && l' == 15), (.xchAHlDec, s.pc, !isIo s.eaHl && l' == 0),
       (.addsAImm n, s.pc, decide (16 ≤ (s.getReg .a).toNat + n.toNat) && !s.addsNoskip),
       (.addsAHl, s.pc, decide (16 ≤ (s.getReg .a).toNat + mem.toNat)),
       (.addsXaImm m, s.pc, decide (256 ≤ xa.toNat + m.toNat)),
       (.addsXaRp q, s.pc, decide (256 ≤ xa.toNat + rq.toNat)),
       (.addsRpXa q, s.pc, decide (256 ≤ rq.toNat + xa.toNat)),
       (.subsAHl, s.pc, decide ((s.getReg .a).toNat < mem.toNat)),
       (.subsXaRp q, s.pc, decide (xa.toNat < rq.toNat)), (.subsRpXa q, s.pc, decide (rq.toNat < xa.toNat)),
       (.skeRegImm r n, s.pc, s.getReg r == n), (.skeHlImm n, s.pc, mem == n), (.skeAHl, s.pc, s.getReg .a == mem),
       (.skeXaHl, s.pc, xa == s.read8 s.eaHl8), (.skeAReg r, s.pc, s.getReg .a == s.getReg r),
       (.skeXaRp q, s.pc, xa == rq), (.sktCy, s.pc, s.cy),
       (.sktMem m b, s.pc, s.readBit (s.eaMem m) b), (.skfMem m b, s.pc, !s.readBit (s.eaMem m) b),
       (.sktFmem hi f b, s.pc, s.readBit (fmemAddr hi f) b), (.skfFmem hi f b, s.pc, !s.readBit (fmemAddr hi f) b),
       (.sktPmem g, s.pc, s.readBit (s.pmemAddr g) s.pmemBit),
       (.skfPmem g, s.pc, !s.readBit (s.pmemAddr g) s.pmemBit),
       (.sktHmem d b, s.pc, s.readBit (s.hmemAddr d) b), (.skfHmem d b, s.pc, !s.readBit (s.hmemAddr d) b),
       (.sktclrFmem hi f b, s.pc, s.readBit (fmemAddr hi f) b),
       (.sktclrPmem g, s.pc, s.readBit (s.pmemAddr g) s.pmemBit),
       (.sktclrHmem d b, s.pc, s.readBit (s.hmemAddr d) b)] →
      c = true →
      (s.romByte pc.toNat = none → exec i s = .fault (.beyondRom (s.romAddr pc.toNat))) ∧
      (∀ x, s.romByte pc.toNat = some x → lengthOf x = none → exec i s = .refused (.unassignedSkip x))) ∧
    (∀ i a v c, (i, a, v, c) ∈
      [(Instr.incsHl, s.eaHl, mem + 1, mem == 15),
       (.incsMem m, s.eaMem m, s.read4 (s.eaMem m) + 1, s.read4 (s.eaMem m) == 15),
       (.xchAHlInc, s.eaHl, s.getReg .a, l == 15), (.xchAHlDec, s.eaHl, s.getReg .a, l == 0)] →
      isIo a = true → c = true → ∀ u, (s.touch a).ioWrite4 a v = .next u →
      (s.romByte s.pc.toNat = none → exec i s = .fault (.beyondRom (s.romAddr s.pc.toNat))) ∧
      (∀ x, s.romByte s.pc.toNat = some x → lengthOf x = none → exec i s = .refused (.unassignedSkip x))) ∧
    (∀ o, o.sample = s → s.pins.resetAsserted = false → s.resetReq = false → s.standby = .run → s.phiRuns = true →
      s.accepted = none →
      (s.romByte s.pc.toNat = none → step o = .fault (.beyondRom (s.romAddr s.pc.toNat))) ∧
      ∀ x k, s.romByte s.pc.toNat = some x → k < (lengthOf x).getD 1 → s.romByte (s.pc.toNat + k) = none →
        ∃ a, step o = .fault (.beyondRom a) ∧ 0x1800 ≤ a ∧ a < 0x2000)

/-! ### The step -/

/-- R590, R120, R122: in the operating mode, while the CPU clock runs (R518), with no reset and no interrupt accepted, a
step runs the instruction whose bytes stand at PC: as many as its first byte asks for (one for an unassigned first byte). `q`
is the state with the host's next sample; PC is past the instruction when it executes; then the devices follow
(`settle`). PC wraps at 2^PCW (D1, log 36). -/
def Obligations.step_runs_decoded_instruction : Prop :=
  ∀ (s : State) (b : Byte) (tail rest : List Byte) (i : Instr),
    let q := s.sample
    q.pins.resetAsserted = false → q.resetReq = false → q.standby = .run → q.phiRuns = true → q.accepted = none →
    (lengthOf b).getD 1 = tail.length + 1 →
    (∀ k (h : k < (b :: tail).length), q.romByte (q.pc.toNat + k) = some ((b :: tail)[k])) →
    decode (b :: tail) = .ok (i, rest) →
    (q.started (tail.length + 1)).pc = q.truncPc (q.pc.toNat + (tail.length + 1)) ∧
      step s = andThen (exec i (q.started (tail.length + 1))) fun t => .next (settle q t).bump

/-- R36, R26, R80, R81, R521, R531, R541, R551, R557, R561: what every step keeps, from every state that has it. -/
def Obligations.invariant_kept_by_step : Prop :=
  ∀ (s t : State), s.Inv → step s = .next t → t.Inv

/-- The state after reset has the invariant. -/
def Obligations.invariant_at_reset : Prop := State.reset.Inv

/-- R81, R38, R396, R534: no instruction, GETI included, writes program memory or changes the part, or clears the watchdog
enable flag ("once set it cannot be cleared by an instruction"); only SEL, POP BS and the GETI that executes one of them
change MBS and RBS. -/
def Obligations.program_memory_and_banks_kept : Prop :=
  ∀ (i : Instr) (s t : State), exec i s = .next t →
    t.rom = s.rom ∧ t.chip = s.chip ∧ (s.bt.wdtm = true → t.bt.wdtm = true) ∧
      ((∀ n, i ≠ .selMb n) → (∀ n, i ≠ .selRb n) → i ≠ .popBs → (∀ n, i ≠ .getiLow n) → (∀ n, i ≠ .getiHigh n) →
        t.mbs = s.mbs ∧ t.rbs = s.rbs)

/-- The instructions that R259, 43_bit_manipulation.md and R357 let write CY, and GETI, which may execute one. -/
def Sys2Proof.Machine.mayWriteCy (i : Instr) : Prop :=
  (∃ p, i = .addcXaRp p ∨ i = .addcRpXa p ∨ i = .subcXaRp p ∨ i = .subcRpXa p) ∨
  i = .addcAHl ∨ i = .subcAHl ∨ i = .rorcA ∨ i = .set1Cy ∨ i = .clr1Cy ∨ i = .not1Cy ∨ i = .reti ∨
  (∃ hi f b, i = .mov1CyFmem hi f b ∨ i = .and1Fmem hi f b ∨ i = .or1Fmem hi f b ∨ i = .xor1Fmem hi f b) ∨
  (∃ g, i = .mov1CyPmem g ∨ i = .and1Pmem g ∨ i = .or1Pmem g ∨ i = .xor1Pmem g) ∨
  (∃ d b, i = .mov1CyHmem d b ∨ i = .and1Hmem d b ∨ i = .or1Hmem d b ∨ i = .xor1Hmem d b) ∨
  (∃ t, i = .getiLow t) ∨ ∃ t, i = .getiHigh t

/-- R259, R261: no other instruction changes CY. -/
def Obligations.carry_written_only_by : Prop :=
  ∀ (i : Instr) (s t : State), exec i s = .next t → ¬ mayWriteCy i → t.cy = s.cy

/-! ### Output pins -/

/-- R486, R488, R489, R521, R541, R543, R556, Table 5-3: the levels on the pins of ports 2 to 6. In input mode a pin is what
the host drives and the chip drives nothing; in output mode ports 3 and 6 give their latch, port 2 its latch OR BUZ, PCL,
PTO1, PTO0 (DEDUCED by R488, log 43), and the open-drain ports 4 and 5 their latch AND the outside level, a latch bit 0
driving low and a 1 nothing. R520, R518: the PCL gate opens at a rising start of the selected tap of the fX divider, and
after disabling passes the clock until its high period ends; Φ stands still, and so does its gate, while it is not
supplied. The codes 01, 10, 11 of CLOM for fX/2^2, fX/2^4, fX/2^6 are PRESUMED (log 37). The clauses on BUZ are the
model's choice where WM2 = 0 or the clock is not divided (log 42, DESIGN CHOICE): BUZ is then the bit of the watch timer's
divider, held at 0 (R543 marks its own sentence on WM2 = 0 as derived), or fX/2^7, or fXT itself, high in the second half of
its period by the phase `fxtRem`, which stands still while fXT does not run (R518) and is the same after whole periods. That
one fX divider gives every tap is decision D15 (log 56). -/
def Obligations.output_pins : Prop :=
  ∀ (s : State) (e : Elapsed) (k : BitVec 2),
    let out2 := nib s.buzLevel s.pclLevel (s.timer1.toe && s.timer1.tout) (s.timer0.toe && s.timer0.tout)
    let pin : Nat → Nibble → Prop := fun n v => ∀ b < 4,
      (s.pinLevels n).getLsbD b = if (s.portMode n).getLsbD b then v.getLsbD b else (s.hostPin n).getLsbD b
    pin 2 (s.ports.latch2 ||| out2) ∧ pin 3 s.ports.latch3 ∧ pin 6 s.ports.latch6 ∧
    pin 4 (s.ports.latch4 &&& s.pins.p4) ∧ pin 5 (s.ports.latch5 &&& s.pins.p5) ∧
    (∀ n ∈ [2, 3, 4, 5, 6], ∀ b : BitVec 2,
      ((s.portMode n).getLsbD b.toNat = false → ∀ high, s.pinDrive n b ≠ .level high) ∧
      ((s.portMode n).getLsbD b.toNat = true → n ∈ [2, 3, 6] →
        s.pinDrive n b = .level ((s.pinLevels n).getLsbD b.toNat)) ∧
      ((s.portMode n).getLsbD b.toNat = true → n ∈ [4, 5] →
        if (s.portLatch n).getLsbD b.toNat then ∀ high, s.pinDrive n b ≠ .level high
        else s.pinDrive n b = .level false)) ∧
    (s.watch.wm.getLsbD 7 = false → s.buzLevel = false) ∧
    (s.watch.wm.getLsbD 7 = true → s.watch.wm.getLsbD 5 = false →
      s.buzLevel = s.watch.div.getLsbD (if s.watch.wm.getLsbD 4 then 2 else 3)) ∧
    (s.watch.wm.getLsbD 7 = true → s.watch.wm.extractLsb' 4 2 = 3 →
      (s.watch.wm.getLsbD 0 = false → s.buzLevel = s.clk.div.getLsbD 6) ∧
      (s.watch.wm.getLsbD 0 = true → (s.advanceWatch e).buzLevel = s.buzLevel ∧
        (s.buzLevel = true ↔ s.chip.fxHz ≤ 2 * s.clk.fxtRem) ∧
        ∀ c, (s.fxtRunning = false ∨ s.onFx = false → (s.advanceDividers c e).buzLevel = s.buzLevel) ∧
          (s.fxtRunning = true → s.onFx = true → ((s.advanceDividers c e).buzLevel = true ↔
            s.chip.fxHz ≤ 2 * ((s.clk.fxtRem + c * s.clk.phi.fxPerCycle * s.chip.fxtHz) % s.chip.fxHz))))) ∧
    (s.clk.pcl = none → s.pclLevel = false) ∧ (s.clk.pcl = some 0 → s.pclLevel = s.clk.phiHigh) ∧
    (k ≠ 0 →
      let period := 4 ^ k.toNat
      let at' : Nat → Nat := fun i => (s.clk.div.toNat + i) % period
      let t := s.tickPcl e
      (s.clk.pcl = some k → (s.pclLevel = true ↔ period / 2 ≤ at' 0)) ∧
      (s.clk.pcl = none → s.clk.clom.getLsbD 3 = true → s.clk.clom.extractLsb' 0 2 = k →
        t.clk.pcl = if ∃ i ≤ e.fx, 1 ≤ i ∧ at' i = period / 2 then some k else none) ∧
      (s.clk.pcl = some k → s.clk.clom.getLsbD 3 = true → s.clk.clom.extractLsb' 0 2 = k → t.clk.pcl = some k) ∧
      (s.clk.pcl = some k → s.clk.clom.getLsbD 3 = false →
        t.clk.pcl = if at' 0 < period / 2 ∨ ∃ i ≤ e.fx, 1 ≤ i ∧ at' i = 0 then none else some k)) ∧
    (s.standby ≠ .run ∨ s.phiRuns = false → (s.tickPcl e).clk.phiHigh = s.clk.phiHigh ∧
      (s.clk.pcl = none → s.clk.clom.extractLsb' 0 2 = 0 → (s.tickPcl e).clk.pcl = none))

/-! ### Interrupts -/

/-- R423 (c): VRQn of a set of request flags and of enable flags. -/
def Sys2Proof.Machine.vectoredRequest (q e : Flags) : Nat → Prop
  | 1 => (q.bt = true ∧ e.bt = true) ∨ (q.int4 = true ∧ e.int4 = true)
  | 2 => q.int0 = true ∧ e.int0 = true
  | 3 => q.int1 = true ∧ e.int1 = true
  | 4 => q.csi = true ∧ e.csi = true
  | 5 => q.t0 = true ∧ e.t0 = true
  | 6 => q.t1 = true ∧ e.t1 = true
  | _ => False

/-- R434, R435, R456: which interrupt is accepted at a boundary, if any: none after an interrupt control instruction or
during the two instructions after a standby release; otherwise, with IME = 1, the smallest n whose request was seen in
time and is enabled and which the interrupt status permits. The step then takes that interrupt. Choices here: that IPS code n
names VRQn, and 111 none (U13), is log 14 (PRESUMED); that the smallest n wins also against the interrupt that IPS selects is
decision D12 (R433, N22; log 57); that nothing is accepted with IST = 11B is the refinement of U3 (DESIGN CHOICE, log 13);
which requests a boundary sees is log 21 (DESIGN CHOICE). -/
def Obligations.interrupt_acceptance : Prop :=
  ∀ (s : State) (n : Nat),
    let may : Nat → Prop := fun k => vectoredRequest (s.ints.irq.and s.ints.visible) s.ints.ie k ∧
      (s.ist = 0 ∨ (s.ist = 1 ∧ s.ints.ips.toNat = k))
    (s.accepted = some n ↔
      s.ints.holdoff = false ∧ s.ints.releaseHold = 0 ∧ s.ints.ime = true ∧ may n ∧ ∀ k < n, ¬ may k) ∧
    ∀ p, p.sample = s → s.pins.resetAsserted = false → s.resetReq = false → s.standby = .run → s.phiRuns = true →
      s.accepted = some n →
      step p = andThen (enterInterrupt n s) fun t => .next (settle s t).bump

/-- R436, R437, R431: interrupt entry. Six nibbles hold PC and the whole PSW with the skip flags, SP goes down by 6, the
status goes up by one, the request flag is cleared (for VRQ1 only if one of its two enables is set), PC, MBE and RBE come
from the vector, three machine cycles pass. The skip state is cleared (decision D10, log 60), the saved SK bits stand for it by
decision D3 (log 10), and the hold-off that lets one instruction of the service routine run is the model's (log 20). Where SBS
selects bank 2 or 3, a setting that U4 prohibits, the six nibbles are lost (DESIGN CHOICE, log 13); the vector's address is cut
to PCW bits (D11, log 36). Nothing else changes. -/
def Obligations.interrupt_entry : Prop :=
  ∀ (s : State) (n : Nat) (b0 b1 : Byte) (q : Flags), s.Inv →
    s.romByte (2 * n) = some b0 → s.romByte (2 * n + 1) = some b1 →
    (n, q) ∈
      [(1, { s.ints.irq with bt := s.ints.irq.bt && (s.ints.ie.int4 || !s.ints.ie.bt),
                             int4 := s.ints.irq.int4 && s.ints.ie.bt }),
       (2, { s.ints.irq with int0 := false }), (3, { s.ints.irq with int1 := false }),
       (4, { s.ints.irq with csi := false }), (5, { s.ints.irq with t0 := false }),
       (6, { s.ints.irq with t1 := false })] →
    ∃ t, enterInterrupt n s = .next t ∧
      t = { s with
        ram := t.ram, sp := s.sp - 6, ist := s.ist + 1,
        pc := s.truncPc (b0.extractLsb' 0 6 ++ b1 : BitVec 14).toNat, mbe := b0.getLsbD 7, rbe := b0.getLsbD 6,
        stacked := .none, addsNoskip := false, cycles := s.cycles + 3,
        ints := { s.ints with irq := q, holdoff := true } } ∧
      ∀ a, t.ramRead a = wordAfter
        (s.stackWord (-1) (nib s.cy (s.stacked == .groupB) (s.stacked == .groupA) s.addsNoskip) ++
         s.stackWord (-2) (s.ist ++ BitVec.ofBool s.mbe ++ BitVec.ofBool s.rbe) ++
         s.stackWord (-3) (s.pc.extractLsb' 4 4) ++ s.stackWord (-4) (s.pc.extractLsb' 0 4) ++
         s.stackWord (-5) (nib (s.sbs.getLsbD 3 && s.mbe) (s.sbs.getLsbD 3 && s.rbe) (s.pc.getLsbD 13)
           (s.pc.getLsbD 12)) ++
         s.stackWord (-6) (s.pc.extractLsb' 8 4)) s a

/-- R357 is the inverse of R436: with the stack in RAM, RETI right after an interrupt entry gives back PC and the whole
PSW, the skip state included (by decision D3, log 10), and SP; every data memory word outside the frame is as before. -/
def Obligations.reti_undoes_interrupt_entry : Prop :=
  ∀ (s t u : State) (n : Nat), s.Inv → s.sbs.getLsbD 1 = false →
    enterInterrupt n s = .next t → exec .reti t = .next u →
    u.pc = s.pc ∧ u.ist = s.ist ∧ u.mbe = s.mbe ∧ u.rbe = s.rbe ∧ u.cy = s.cy ∧ u.stacked = s.stacked ∧
      u.addsNoskip = s.addsNoskip ∧ u.sp = s.sp ∧
      ∀ x, (∀ k ∈ ([-1, -2, -3, -4, -5, -6] : List (BitVec 8)), x ≠ s.stkAddr k) → u.ramRead x = s.ramRead x

/-- R425 to R429, R591: at each sample IRQ4 is set by either edge of P00, IRQ1 by the edge of P11 that IM10 selects, IRQ2 by
a rising edge of P12 (IM2 = 0) or by the fall of the AND of the key pins that IM2 selects (which codes select which pins is a
free value, log 16), IRQ0 by the edge of P10 that IM01, IM00 select (the codes 01, 10, 11 are PRESUMED, log 15): with IM02 = 1
of the pin itself, with IM02 = 0 of the noise eliminator's output, which follows the pin after two samples at the new level
and takes none while Φ is not supplied. How many samples an advance holds is the model's choice (log 50; fX/64 is a
tap of the one divider, D15, log 56). A set flag stays set. -/
def Obligations.edges_set_requests : Prop :=
  ∀ (s : State) (e : Elapsed),
    let t := s.detectEdges
    let r := s.advanceNoise e
    let g := s.edges
    let now := s.pins.p1.getLsbD 0
    let edge : Bool → Bool → Bool := fun a b =>
      match (s.ints.im0.extractLsb' 0 2).toNat with | 0 => !a && b | 1 => a && !b | 2 => a != b | _ => false
    let n := if s.standby = .run ∧ s.phiRuns = true then
      (if s.ints.im0.getLsbD 3 then divTicks s.clk.div e.fx 6 else e.cycles) else 0
    t.ints.irq.int4 = (s.ints.irq.int4 || (g.int4 != s.pins.p0.getLsbD 0)) ∧
    t.ints.irq.int1 = (s.ints.irq.int1 ||
      (if s.ints.im1 then g.int1 && !s.pins.p1.getLsbD 1 else !g.int1 && s.pins.p1.getLsbD 1)) ∧
    t.ints.irq.int2 = (s.ints.irq.int2 ||
      match (if s.ints.im2 = 0 then KeySel.int2Rising else Config.im2Codes s.ints.im2) with
      | .int2Rising => !g.int2 && s.pins.p1.getLsbD 2
      | .kr23Falling => (g.kr.getLsbD 3 && g.kr.getLsbD 2) && !((s.pinLevels 6).getLsbD 3 && (s.pinLevels 6).getLsbD 2)
      | .kr03Falling => g.kr == 0xF && s.pinLevels 6 != 0xF) ∧
    (s.ints.im0.getLsbD 2 = true → t.ints.irq.int0 = (s.ints.irq.int0 || edge g.int0 now) ∧
      r.ints = s.ints ∧ r.edges.nfOut = now) ∧
    (s.ints.im0.getLsbD 2 = false → t.ints.irq.int0 = s.ints.irq.int0 ∧
      (n = 0 → r = s) ∧
      (now = g.nfOut → r.ints.irq.int0 = s.ints.irq.int0 ∧ r.edges.nfOut = now) ∧
      (now ≠ g.nfOut → n ≠ 0 → g.nfCount + n < 2 → r.ints.irq.int0 = s.ints.irq.int0 ∧
        r.edges.nfOut = g.nfOut ∧ r.edges.nfCount = g.nfCount + n) ∧
      (now ≠ g.nfOut → n ≠ 0 → 2 ≤ g.nfCount + n → r.ints.irq.int0 = (s.ints.irq.int0 || edge g.nfOut now) ∧
        r.edges.nfOut = now)) ∧
    t.edges.int4 = s.pins.p0.getLsbD 0 ∧ t.edges.int1 = s.pins.p1.getLsbD 1 ∧ t.edges.int2 = s.pins.p1.getLsbD 2 ∧
    t.edges.int0 = now ∧ t.edges.kr = s.pinLevels 6 ∧ t.detectEdges = t

/-! ### Reset and standby -/

/-- R601, R602, R606: the values that the spec gives for reset, in `State.reset`; PC, MBE and RBE are those of the reset
vector (whose bytes are the model's unlisted ones, log 3). -/
def Obligations.reset_state_values : Prop :=
  let s := State.reset
  s.stacked = .none ∧ s.addsNoskip = false ∧ s.ist = 0 ∧ s.sbs = 0x8 ∧ s.mbs = 0 ∧ s.rbs = 0 ∧
  (∃ b0 b1, s.romByte 0 = some b0 ∧ s.romByte 1 = some b1 ∧ s.mbe = b0.getLsbD 7 ∧ s.rbe = b0.getLsbD 6 ∧
    s.pc = s.truncPc (b0.extractLsb' 0 6 ++ b1 : BitVec 14).toNat) ∧
  s.bt.btm = 0 ∧ s.bt.wdtm = false ∧
  s.timer0.count = 0 ∧ s.timer0.modulo = 0xFF ∧ s.timer0.cp = 0 ∧ s.timer0.run = false ∧ s.timer0.mode = 0 ∧
  s.timer0.toe = false ∧ s.timer0.tout = false ∧
  s.timer1.count = 0 ∧ s.timer1.modulo = 0xFF ∧ s.timer1.cp = 0 ∧ s.timer1.run = false ∧ s.timer1.mode = 0 ∧
  s.timer1.toe = false ∧ s.timer1.tout = false ∧
  s.watch.wm = 0 ∧ s.serial.csim = 0 ∧ s.serial.running = false ∧ s.serial.p01 = true ∧
  s.clk.pcc = 0 ∧ s.clk.scc0 = false ∧ s.clk.scc3 = false ∧ s.clk.clom = 0 ∧ s.clk.sos = 0 ∧
  s.adc.read = 0x04 ∧ s.adc.saValid = true ∧ s.adc.sa = 0x7F ∧
  s.ints.irq = Flags.zero ∧ s.ints.ie = Flags.zero ∧ s.ints.ime = false ∧ s.ints.ips = 0 ∧
  s.ints.im0 = 0 ∧ s.ints.im1 = false ∧ s.ints.im2 = 0 ∧
  s.ports.latch2 = 0 ∧ s.ports.latch3 = 0 ∧ s.ports.latch4 = 0 ∧ s.ports.latch5 = 0 ∧ s.ports.latch6 = 0 ∧
  s.ports.pmga = 0 ∧ s.ports.pm2 = false ∧ s.ports.pm4 = false ∧ s.ports.pm5 = false ∧ s.ports.poga = 0 ∧
  s.standby = .run

/-- R600, R601, R602, R603, R606: a reset signal, from the pin or the watchdog, in every state: the registers that Table
8-1 fixes; what it keeps in a standby mode. While /RESET stays low the reset goes on and keeps every register; then the wait,
in which nothing executes; at its end PC, MBE and RBE come from addresses 0 and 1 of program memory. The model's choices
here: a held /RESET is one reset, each step of which only takes the present pin levels into the edge detectors, and the wait
counts from the rise of /RESET (DESIGN CHOICE, log 38); a step of the wait is one quantum (DESIGN CHOICE, log 22); a watchdog
overflow in the cycles of the instruction that enters a standby mode counts as a reset in that mode (DESIGN CHOICE, log 55). -/
def Obligations.reset_operation_and_vector : Prop :=
  ∀ (s : State) (b0 b1 : Byte) (left : Nat),
    let q := s.sample
    (q.pins.resetAsserted = true ∧ q.standby ≠ .resetHeld ∨ q.pins.resetAsserted = false ∧ q.resetReq = true →
      ∃ t, step s = .next t ∧
        t.stacked = .none ∧ t.addsNoskip = false ∧ t.ist = 0 ∧ t.sbs = 0x8 ∧ t.mbs = 0 ∧ t.rbs = 0 ∧
        t.ints = Interrupts.reset ∧ t.timer0 = TimerCounter.reset ∧ t.timer1 = TimerCounter.reset ∧
        t.ports = Ports.reset ∧ t.adc = Adc.reset ∧ t.bt.btm = 0 ∧ t.bt.wdtm = false ∧ t.watch.wm = 0 ∧
        t.serial.csim = 0 ∧ t.serial.running = false ∧ t.serial.p01 = true ∧ t.clk.pcc = 0 ∧ t.clk.scc0 = false ∧
        t.clk.scc3 = false ∧ t.clk.clom = 0 ∧ t.clk.sos = 0 ∧ t.rom = s.rom ∧ t.chip = s.chip ∧
        t.resetReq = false ∧
        t.standby = (if q.pins.resetAsserted then .resetHeld else .resetWait s.chip.resetWait) ∧
        (q.standby = .halt ∨ q.standby = .stop →
          t.ram = s.ram ∧ t.cy = s.cy ∧ t.serial.sio = s.serial.sio ∧ t.bsb0 = s.bsb0 ∧ t.bsb1 = s.bsb1 ∧
            t.bsb2 = s.bsb2 ∧ t.bsb3 = s.bsb3)) ∧
    (q.pins.resetAsserted = true → q.standby = .resetHeld →
      step s = .next { q with edges := q.currentEdges, freeCount := q.freeCount + 1 }) ∧
    (q.pins.resetAsserted = false → q.resetReq = false →
      q.standby = .resetWait left ∨ (q.standby = .resetHeld ∧ left = s.chip.resetWait) →
      ((q.elapsed 1).fx < left →
        ∃ t, step s = .next t ∧ t.standby = .resetWait (left - (q.elapsed 1).fx) ∧ t.pc = s.pc ∧ t.ram = s.ram ∧
          t.cycles = s.cycles ∧ t.sp = s.sp) ∧
      (left ≤ (q.elapsed 1).fx → s.romByte 0 = some b0 → s.romByte 1 = some b1 →
        ∃ t, step s = .next t ∧ t.standby = .run ∧ t.mbe = b0.getLsbD 7 ∧ t.rbe = b0.getLsbD 6 ∧
          t.pc = s.truncPc (b0.extractLsb' 0 6 ++ b1 : BitVec 14).toNat))

/-- R452, R454, R455, R456, R460, R590: in a standby mode no instruction runs. That none runs in the operating mode
either while the oscillator of the CPU clock does not run is the model's inference from R518 (DEDUCED, log 53). In HALT and
STOP the devices see the host's sample and one quantum, none if a release is pending (log 22). An enabled request or test flag
then releases the mode, whatever IME and the interrupt status are: HALT at once, with PCC bits 3 and 2 cleared and two
instructions to run before an interrupt is accepted; STOP into the wait. That BT counts the wait from 0 is an inference of
R535 (DEDUCED, log 47). That a reset signal of the watchdog in the same quantum comes first, the mode unreleased, is the
model's choice (DESIGN CHOICE, log 55). -/
def Obligations.standby_release : Prop :=
  ∀ (s : State) (c : Nat),
    let q := s.sample
    let released : State → Prop := fun z =>
      (∃ n, vectoredRequest z.ints.irq z.ints.ie n) ∨ (z.ints.irq.w = true ∧ z.ints.ie.w = true) ∨
        (z.ints.irq.int2 = true ∧ z.ints.ie.int2 = true)
    let z := q.quantum c
    q.pins.resetAsserted = false → q.resetReq = false → (released q → c = 0) → (¬ released q → c = 1) →
    (released q → released z) ∧
    (q.standby = .halt → released z → z.resetReq = false → step s = .next
      { z with standby := .run, clk := { z.clk with pcc := z.clk.pcc &&& 0x3 },
               ints := { z.ints with releaseHold := 2 }, freeCount := z.freeCount + 1 }) ∧
    (q.standby = .stop → released z → step s = .next
      { z with standby := .wait, bt := { z.bt with count := 0 }, freeCount := z.freeCount + 1 }) ∧
    (q.standby = .halt ∨ q.standby = .stop → ¬ released z ∨ z.resetReq = true →
      step s = .next { z with freeCount := z.freeCount + 1 } ∧ z.standby = q.standby) ∧
    (q.standby = .halt ∨ q.standby = .stop ∨ q.standby = .wait ∨ (q.standby = .run ∧ q.phiRuns = false) →
      ∃ t, step s = .next t ∧ t.pc = s.pc ∧ t.ram = s.ram ∧ t.cycles = s.cycles ∧ t.sp = s.sp)

/-! ### Peripheral hardware -/

/-- R532, R534, R535, R455: the basic interval timer. It counts modulo 256; an overflow in the operating mode sets IRQBT,
or with WDTM = 1 asks for a reset; the overflow that ends the wait after STOP lets the CPU run and never asks for a reset.
That this last overflow sets IRQBT too when WDTM = 0 is an inference of R535 (DEDUCED, log 47). R531: a 1 written to BTM bit 3,
alone or with the code, clears BT and IRQBT. R542: the watch timer sets IRQW when its tap completes a period, and is held
cleared while WM2 = 0. That all taps of fX come from one divider which no write clears, a start of BT included, is decision
D15 (R530, N28; log 56). -/
def Obligations.interval_and_watch_timers : Prop :=
  ∀ (s : State) (e : Elapsed),
    let n := s.bt.count.toNat + divTicks s.clk.div e.fx s.bt.tap
    let t := s.advanceBt e
    let w := s.advanceWatch e
    let p := if s.watch.wm.getLsbD 0 then e.fxt else divTicks s.clk.div e.fx 7
    let k := if s.watch.wm.getLsbD 1 then 2 ^ 7 else 2 ^ 14
    t.bt.count.toNat = n % 256 ∧
    (n < 256 → t.ints = s.ints ∧ t.resetReq = s.resetReq ∧ t.standby = s.standby) ∧
    (256 ≤ n → t.ints.irq.bt = (s.ints.irq.bt || !s.bt.wdtm) ∧
      (s.standby = .wait → t.standby = .run ∧ t.resetReq = s.resetReq ∧ t.clk.pcc = s.clk.pcc &&& 0x3 ∧
        t.ints.releaseHold = 2) ∧
      (s.standby ≠ .wait → t.standby = s.standby ∧ t.resetReq = (s.resetReq || s.bt.wdtm))) ∧
    (s.watch.wm.getLsbD 2 = false → w.watch.div = 0 ∧ w.ints = s.ints) ∧
    (s.watch.wm.getLsbD 2 = true → w.watch.div.toNat = (s.watch.div.toNat + p) % 2 ^ 14 ∧
      w.ints.irq.w = (s.ints.irq.w || decide (s.watch.div.toNat / k < (s.watch.div.toNat + p) / k))) ∧
    (∀ (v : Nibble) (u : State), s.ioWrite4 0xF85 v = .next u →
      u.bt = { s.bt with btm := v.extractLsb' 0 3, count := if v.getLsbD 3 then 0 else s.bt.count } ∧
      u.ints = { s.ints with irq := { s.ints.irq with bt := !v.getLsbD 3 && s.ints.irq.bt } }) ∧
    s.ioWriteBit 0xF85 3 true = .next
      { s with bt := { s.bt with count := 0 }, ints := { s.ints with irq := { s.ints.irq with bt := false } } } ∧
    s.ioWriteBit 0xF8B 3 true = .next { s with bt := { s.bt with wdtm := true } }

/-- R554, R556, R557: from count 0 the n + 1-th count pulse, n the modulo value, sets IRQTn, clears the counter and
inverts TOUT F/F; until then the counter counts and nothing is set: for channels 0 and 1 in 8-bit mode, and for the combined
counter in 16-bit mode. R551: an overflow of T0 is a count pulse of channel 1. Which pulse clears the counter is decision D16
(log 58); with modulo value 00H every pulse matches (U21, log 27). The count pulses come from one divider of fX that no write
clears (D15, log 56). That a start by TM0 clears T1 too by the mode that is written, not by the one it leaves, is the
model's choice (DESIGN CHOICE, log 26). R552, R569: a write of TMn with bit 3 = 1, or of that bit alone,
clears Tn (in 16-bit mode both), TOUT F/F and IRQTn, which may stay set only where a match coincides (U20, log 26); a TOUT F/F 0
that falls is a falling edge of the serial clock TO0. -/
def Obligations.timers_match_every_period : Prop :=
  ∀ (s : State) (e : Elapsed) (pe : PinEdges) (n : Nat),
    let r := s.advanceTimers e pe
    let t0 := s.timer0
    let t1 := s.timer1
    (t0.run = true → t0.count = 0 → s.pulses0 e pe = n →
      (t0.mode = 0 →
        (n ≤ t0.modulo.toNat → r.1.timer0 = { t0 with count := BitVec.ofNat 8 n } ∧
          r.1.ints.irq.t0 = s.ints.irq.t0 ∧ r.2 = 0) ∧
        (n = t0.modulo.toNat + 1 → r.1.timer0 = { t0 with tout := !t0.tout } ∧ r.1.ints.irq.t0 = true ∧ r.2 = 1)) ∧
      (t0.mode = 2 → t1.count = 0 →
        let m := t1.modulo.toNat * 256 + t0.modulo.toNat
        (n ≤ m → r.1.timer0 = { t0 with count := BitVec.ofNat 8 n } ∧
          r.1.timer1 = { t1 with count := BitVec.ofNat 8 (n / 256) } ∧ r.1.ints.irq.t0 = s.ints.irq.t0) ∧
        (n = m + 1 → r.1.timer0 = { t0 with tout := !t0.tout } ∧ r.1.timer1 = t1 ∧ r.1.ints.irq.t0 = true))) ∧
    (t1.run = true → t1.count = 0 → t0.mode ≠ 2 → t1.cp ≠ 2 → s.pulses1 e pe 0 = n →
      (n ≤ t1.modulo.toNat → r.1.timer1 = { t1 with count := BitVec.ofNat 8 n } ∧ r.1.ints.irq.t1 = s.ints.irq.t1) ∧
      (n = t1.modulo.toNat + 1 → r.1.timer1 = { t1 with tout := !t1.tout } ∧ r.1.ints.irq.t1 = true)) ∧
    (t0.run = true → t1.run = true → t0.mode ≠ 2 → t1.cp = 2 → s.pulses0 e pe = n → t0.modulo < t0.count →
      256 ≤ t0.count.toNat + n → t0.count.toNat + n ≤ 256 + t0.modulo.toNat →
      r.1.timer0 = { t0 with count := BitVec.ofNat 8 (t0.count.toNat + n) } ∧
      r.1.timer1 = (if t1.count = t1.modulo then { t1 with count := 0, tout := !t1.tout }
        else { t1 with count := t1.count + 1 })) ∧
    (t0.run = false → t0.mode ≠ 2 → r.1.timer0 = t0) ∧ (t1.run = false → t0.mode ≠ 2 → r.1.timer1 = t1) ∧
    (∀ (v : Byte) (u : State), v.getLsbD 3 = true → s.ioWrite8 0xFA0 v = .next u →
      u.timer0 = { t0 with cp := v.extractLsb' 4 3, run := v.getLsbD 2, mode := v.extractLsb' 0 2, count := 0, tout := false } ∧
      u.timer1 = (if v.getLsbD 1 then { t1 with count := 0 } else t1) ∧
      u.serial = (if t0.tout = true ∧ s.serial.csim.extractLsb' 0 2 = 1 then s.serial.fall else s.serial) ∧
      (s.coincidence.1 = false → u.ints = { s.ints with irq := { s.ints.irq with t0 := false } })) ∧
    (∀ u, s.ioWriteBit 0xFA0 3 true = .next u →
      u.timer0 = { t0 with count := 0, tout := false } ∧
      u.timer1 = (if t0.mode = 2 then { t1 with count := 0 } else t1) ∧
      u.serial = (if t0.tout = true ∧ s.serial.csim.extractLsb' 0 2 = 1 then s.serial.fall else s.serial) ∧
      (s.coincidence.1 = false → u.ints = { s.ints with irq := { s.ints.irq with t0 := false } })) ∧
    (∀ (v : Byte) (u : State), v.getLsbD 3 = true → s.ioWrite8 0xFA8 v = .next u →
      u.timer1 = { t1 with cp := v.extractLsb' 4 3, run := v.getLsbD 2, mode := v.extractLsb' 0 2, count := 0, tout := false } ∧
      u.timer0 = t0 ∧ (s.coincidence.2 = false → u.ints = { s.ints with irq := { s.ints.irq with t1 := false } })) ∧
    (∀ u, s.ioWriteBit 0xFA8 3 true = .next u → u.timer1 = { t1 with count := 0, tout := false } ∧ u.timer0 = t0 ∧
      (s.coincidence.2 = false → u.ints = { s.ints with irq := { s.ints.irq with t1 := false } }))

/-- Eight serial clocks, a falling then a rising edge each, with the levels of port 0 at the rising edges. -/
def Sys2Proof.Machine.serialClocks (ps : List Nibble) (u : Serial) : Serial × Bool :=
  ps.foldl (fun x p => ((x.1.fall.rise p).1, x.2 || (x.1.fall.rise p).2)) (u, false)

/-- R562 to R565, R567, R568: the serial interface, at the bit level of decision D17 (log 59). A write of SIO puts the byte into
the shift register, reversed where CSIM3 = 0 and CSIM2 = 1 (LSB first), and with CSIE = 1 starts a transfer; a read gives it back
in the same order. At the k-th falling edge the SO latch takes bit 7 - k of the shift register as it was; after eight clocks
it holds the levels at the rising edges, the first in bit 7: of SI in 3-wire mode; in 2-wire mode of the line SB0 or SB1, which
the chip pulls low where it sends 0. Then the transfer has stopped and IRQCSI is asked for once, at the eighth clock. RELT and
CMDT set and clear the SO latch; CSIE = 0 stops a transfer. That accesses of SIO, RELT and CMDT do the same during a transfer
or while /SCK is low is the model's choice: U24 leaves them open and suggests it beside refusing (DESIGN CHOICE, log 29). -/
def Obligations.serial_transfer : Prop :=
  ∀ (s : State) (v : Byte) (ps : List Nibble),
    let u := s.serial
    let reversed := u.csim.getLsbD 3 = false ∧ u.csim.getLsbD 2 = true
    (∃ w : Byte, s.ioWrite8 0xFE4 v = .next { s with serial := if u.csim.getLsbD 7
        then { u with sio := w, running := true, count := 0, sckLow := false } else { u with sio := w } } ∧
      (reversed → ∀ i < 8, w.getLsbD i = v.getLsbD (7 - i)) ∧ (¬ reversed → w = v)) ∧
    (∀ i < 8, (s.ioRead8 0xFE4).getLsbD i =
      if u.csim.getLsbD 3 = false ∧ u.csim.getLsbD 2 = true then u.sio.getLsbD (7 - i) else u.sio.getLsbD i) ∧
    (u.csim.getLsbD 7 = true → u.running = true → u.count = 0 → ps.length ≤ 8 →
      let r := serialClocks ps u
      (ps.length < 8 → r.2 = false ∧ r.1.running = true ∧ r.1.fall.soLatch = u.sio.getLsbD (7 - ps.length)) ∧
      (ps.length = 8 → r.2 = true ∧ r.1.running = false ∧ r.1.count = 8 ∧
        ∀ k (h : k < ps.length), r.1.sio.getLsbD (7 - k) =
          if u.csim.getLsbD 3 then u.sio.getLsbD (7 - k) && (ps[k]).getLsbD (if u.csim.getLsbD 4 then 3 else 2)
          else (ps[k]).getLsbD 3)) ∧
    s.ioWriteBit 0xFE2 0 true = .next { s with serial := { u with soLatch := true } } ∧
    s.ioWriteBit 0xFE2 1 true = .next { s with serial := { u with soLatch := false } } ∧
    (∀ b, s.ioWriteBit 0xFE2 b false = .next s) ∧
    s.ioWriteBit 0xFE1 3 false = .next
      { s with serial := { u with csim := u.csim &&& 0x7F, running := false, count := 0, sckLow := false } }

/-- R571 to R573: a write of ADM with SOC = 1 asks for a conversion that starts within 16 fX periods; while fX runs it
then takes 168 of them, after which SA holds the channel's value (FFH with ADEN = 0) and EOC is 1. That SOC written during a
conversion, or before a pending one has begun, asks for a new one in the same way (U26 leaves it open), and that the start
delay is one free value from 0 to 16, are the model's choices (DESIGN CHOICE, log 28). -/
def Obligations.analog_conversion : Prop :=
  ∀ (s : State) (v : Byte) (e : Elapsed), v.getLsbD 3 = true → s.fxRunning = true →
    let t := s.writeAdm v
    let r := t.advanceAdc e
    t.adc.aden = v.getLsbD 7 ∧ t.adc.ch = v.extractLsb' 4 3 ∧ t.adc.saValid = false ∧
    ∃ d, d ≤ 16 ∧ t.adc.pending = some d ∧
      (e.fx < d → r.adc = { t.adc with pending := some (d - e.fx) }) ∧
      (d ≤ e.fx → e.fx < d + 168 → r.adc.pending = none ∧ r.adc.eoc = false ∧ r.adc.saValid = false) ∧
      (d + 168 ≤ e.fx → r.adc.pending = none ∧ r.adc.eoc = true ∧ r.adc.saValid = true ∧
        r.adc.sa = if v.getLsbD 7 then s.pins.an.getD (v.extractLsb' 4 3).toNat 0xFF else 0xFF)

/-- R486, R493, R494, Table 5-3: the input/output ports 2 to 6. A read takes the latch for a bit in output mode and the
pin for a bit in input mode; a 4-bit write sets the latch in either mode; a bit write in output mode changes the addressed
latch bit alone. A bit write to a bit in input mode, or to a port that mixes the modes, still writes the addressed latch bit
and keeps a bit in output mode if the addressed one is; the other bits Table 5-3 calls undefined (U15; free values, log 30).
No other port's latch changes. -/
def Obligations.port_latches_and_pins : Prop :=
  ∀ (s t : State) (n : Nat) (v : Nibble) (b : BitVec 2) (x : Bool), n ∈ [2, 3, 4, 5, 6] →
    (∀ k < 4, (s.ioRead4 (BitVec.ofNat 12 (0xFF0 + n))).getLsbD k =
      if (s.portMode n).getLsbD k then (s.portLatch n).getLsbD k else (s.hostPin n).getLsbD k) ∧
    (s.ioWrite4 (BitVec.ofNat 12 (0xFF0 + n)) v = .next t → t.portLatch n = v ∧
      ∀ m, m ≠ n → t.portLatch m = s.portLatch m) ∧
    (s.portMode n = 0xF → s.ioWriteBit (BitVec.ofNat 12 (0xFF0 + n)) b x = .next t →
      t.portLatch n = withBit (s.portLatch n) b x ∧ ∀ m, m ≠ n → t.portLatch m = s.portLatch m) ∧
    (∃ u, s.ioWriteBit (BitVec.ofNat 12 (0xFF0 + n)) b x = .next u ∧ (u.portLatch n).getLsbD b.toNat = x ∧
      (∀ k < 4, (s.portMode n).getLsbD b.toNat = true → (s.portMode n).getLsbD k = true → k ≠ b.toNat →
        (u.portLatch n).getLsbD k = (s.portLatch n).getLsbD k) ∧
      ∀ m, m ≠ n → u.portLatch m = s.portLatch m)

/-- R512, R515: after a write that selects another CPU clock the change is pending for at most the delay of Table 5-5, in
machine cycles of the clock before it, and until it has run down that clock stays in effect; then the new clock is in effect,
as soon as its oscillator runs. That the delay may be anything up to the maximum, and that the change waits for the new
oscillator, is the model's choice (log 23). -/
def Obligations.clock_change_delay : Prop :=
  ∀ (s before : State) (d c : Nat),
    let per : Nat := match s.clk.phi.sel.toNat with | 0 => 64 | 1 => 16 | 2 => 8 | _ => 4
    ((s.armSwitch before).clk.switchIn = some d → s.clk.target.same before.clk.target = false →
      (s.armSwitch before).clk.phi = s.clk.phi ∧
        (s.clk.phi.sub = true → d ≤ 1) ∧
        (s.clk.phi.sub = false → s.clk.target.sub = false →
          d ≤ (match s.clk.phi.sel.toNat with | 0 => 1 | 1 => 4 | 2 => 8 | _ => 16)) ∧
        (s.clk.phi.sub = false → s.clk.target.sub = true → 0 < s.chip.fxtHz →
          d * (per * s.chip.fxtHz) < s.chip.fxHz + per * s.chip.fxtHz)) ∧
    (s.clk.switchIn = some d → c < d →
      s.tickSwitch c = { s with clk := { s.clk with switchIn := some (d - c) } }) ∧
    (s.clk.switchIn = some d → d ≤ c →
      s.tickSwitch c = { s with clk :=
        if (if s.clk.scc0 then s.fxtRunning else s.fxPresent && !s.clk.scc3)
        then { s.clk with switchIn := none, phi := { sub := s.clk.scc0, sel := s.clk.pcc.extractLsb' 0 2 } }
        else { s.clk with switchIn := some 0 } })

/-! ### Data memory and peripheral registers -/

/-- R80, R92, R95: data memory outside the peripheral area. A word written to RAM reads back and no other word changes; 8
bits at an even RAM address are the word there (low nibble) and the next one; that a write where no RAM is built in changes
nothing is decision D5 (R96, log 7). -/
def Obligations.memory_reads_back : Prop :=
  ∀ (s t : State) (a : DAddr) (v : Nibble) (w : Byte), s.Inv → isIo a = false →
    (s.write4 a v = .next t →
      (isRam a = true → t.read4 a = v) ∧ (isRam a = false → t = s) ∧ ∀ x, x ≠ a → t.ramRead x = s.ramRead x) ∧
    (a.getLsbD 0 = false → isRam a = true → s.write8 a w = .next t →
      t.read8 a = w ∧ t.read4 a = w.extractLsb' 0 4 ∧ t.read4 (a + 1) = w.extractLsb' 4 4 ∧
        ∀ x, x ≠ a → x ≠ a + 1 → t.ramRead x = s.ramRead x)

/-- R83 to R90: the effective addresses, as numbers. That the low bit of an 8-bit `mem` is ignored is decision D7 (R86,
log 52). -/
def Obligations.effective_addresses : Prop :=
  ∀ (s : State) (m : Byte) (hi : Bool) (f g d : Nibble),
    let ind := if s.mbe then s.mbs.toNat else 0
    let h := (s.getReg .h).toNat
    let l := (s.getReg .l).toNat
    (s.eaMem m).toNat = 256 * (if s.mbe then s.mbs.toNat else if m.toNat < 0x80 then 0 else 15) + m.toNat ∧
    (s.eaMem8 m).toNat = (s.eaMem m).toNat / 2 * 2 ∧
    s.eaHl.toNat = 256 * ind + 16 * h + l ∧
    s.eaHl8.toNat = 256 * ind + 16 * h + l / 2 * 2 ∧
    (s.eaRpa1 .de).toNat = 16 * (s.getReg .d).toNat + (s.getReg .e).toNat ∧
    (s.eaRpa1 .dl).toNat = 16 * (s.getReg .d).toNat + l ∧
    (fmemAddr hi f).toNat = (if hi then 0xFF0 else 0xFB0) + f.toNat ∧
    (s.pmemAddr g).toNat = 0xFC0 + 4 * g.toNat + l / 4 ∧ s.pmemBit.toNat = l % 4 ∧
    (s.hmemAddr d).toNat = 256 * ind + 16 * h + d.toNat

/-- R42, R95, R98: a write in the peripheral area goes through, and touches no data memory, PC, CY or skip state,
unless it is one of the prohibited ones, which are refused: a code of BTM (U17) or CSIM (U23), a mode of TM0 or TM1 (U19),
STOP on the subsystem clock by a 4-bit write of PCC (U14, log 51), stopping the main oscillation while it is the
CPU clock (U16). The refusals are log 31, that of the start bit of TM1 alone log 49; that a write of a width or direction
which the I/O map does not allow goes through, discarded, is log 8. That other prohibited or undetermined writes go through
too is the model's choice: IST = 11B (U3) and SBS (U4) log 13, IPS = 111B (U13) log 14, TMOD = 00H (U21) log 27, SOC during
a conversion (U26) log 28, SIO, RELT and CMDT during a transfer (U24) log 29, BUZ code 10 log 42. -/
def Obligations.peripheral_writes : Prop :=
  ∀ (s : State) (a : DAddr) (v : Nibble) (w : Byte) (b : BitVec 2) (x : Bool),
    let ok : Result → Prop := fun r => ∃ t, r = .next t ∧ t.ram = s.ram ∧ t.pc = s.pc ∧ t.cycles = s.cycles ∧
      t.cy = s.cy ∧ t.stacked = s.stacked ∧ t.addsNoskip = s.addsNoskip ∧ t.rom = s.rom ∧ t.mbs = s.mbs ∧ t.rbs = s.rbs
    (a ≠ 0xF85 → (a ≠ 0xFB3 ∨ v.getLsbD 3 = false) → ok (s.ioWrite4 a v)) ∧
    (if v &&& 7 = 0 ∨ v &&& 7 = 3 ∨ v &&& 7 = 5 ∨ v &&& 7 = 7 then ok (s.ioWrite4 0xF85 v)
      else s.ioWrite4 0xF85 v = .refused .btmCode) ∧
    (a ≠ 0xFA0 → a ≠ 0xFA8 → a ≠ 0xFE0 → ok (s.ioWrite8 a w)) ∧
    (if w &&& 0x60 = 0 ∧ w &&& 0xC ≠ 8 then ok (s.ioWrite8 0xFE0 w) else s.ioWrite8 0xFE0 w = .refused .csimCode) ∧
    (if v.getLsbD 3 = true ∧ v.getLsbD 2 = false ∧ (s.clk.scc0 = true ∨ s.clk.phi.sub = true)
      then s.ioWrite4 0xFB3 v = .refused .stopOnSubclock else ok (s.ioWrite4 0xFB3 v)) ∧
    (if w &&& 3 = 0 ∨ (w &&& 3 = 2 ∧ s.timer1.read false = 0x22) then ok (s.ioWrite8 0xFA0 w)
      else s.ioWrite8 0xFA0 w = .refused .timerMode) ∧
    (if w &&& 0x7F = 0x22 ∨ (w &&& 3 = 0 ∧ s.timer0.mode ≠ 2) then ok (s.ioWrite8 0xFA8 w)
      else s.ioWrite8 0xFA8 w = .refused .timerMode) ∧
    (if s.timer1.mode = 0 ∧ s.timer0.mode ≠ 2 then ok (s.ioWriteBit 0xFA8 3 true)
      else s.ioWriteBit 0xFA8 3 true = .refused .timerMode) ∧
    ((x = true → b = 3 → a ≠ 0xFB7 ∧ a ≠ 0xFA8) → ok (s.ioWriteBit a b x)) ∧
    (if s.clk.phi.sub = true then ok (s.ioWriteBit 0xFB7 3 true)
      else s.ioWriteBit 0xFB7 3 true = .refused .mainStopOnMain)

/-- R29, R32 to R40, R426 to R428, R430, R514, R521, R581, R493, R555: registers that read as they were written, with the
bits that are fixed: SP bit 0 (R36), the unused bits of IM1, IM2, SOS and CLOM. That SBS bit 2 and IST = 11 are held is log 13
(U4, U3), that IPS = 111 is held is log 14 (U13), and that CLOM bit 2 reads 0 is log 9. -/
def Obligations.registers_read_back : Prop :=
  ∀ (s t : State) (v : Nibble) (w : Byte),
    (∀ a m, (a, m) ∈ ([(0xF84, 15), (0xFB0, 15), (0xFB2, 15), (0xFB4, 15), (0xFB5, 1), (0xFB6, 3), (0xFB8, 15),
        (0xFBC, 15), (0xFBE, 15), (0xFC0, 15), (0xFC1, 15), (0xFC2, 15), (0xFC3, 15), (0xFCF, 3), (0xFD0, 11)] :
        List (DAddr × Nibble)) →
      s.ioWrite4 a v = .next t → t.ioRead4 a = v &&& m) ∧
    (∀ a m, (a, m) ∈ ([(0xF80, 0xFE), (0xFA6, 0xFF), (0xFAE, 0xFF), (0xFC0, 0xFF), (0xFC2, 0xFF), (0xFE8, 0xFF)] :
        List (DAddr × Byte)) →
      s.ioWrite8 a w = .next t → t.ioRead8 a = w &&& m)
end

