-- ==== Sys2Proof/Laws/Devices.lean ====
section
/-! SUPPORT. What the devices can change: time passing (`advance`, `quantum`, `settle`) touches the device fields of State
alone, and none of the registers that select a device's mode. -/

namespace Sys2Proof.Machine

/-- `t` is `s` but for what the devices count, latch and ask for. -/
def SameCpu (s t : State) : Prop :=
  t = { s with ints := t.ints, edges := t.edges, clk := t.clk, bt := t.bt, watch := t.watch, timer0 := t.timer0,
               timer1 := t.timer1, serial := t.serial, adc := t.adc, standby := t.standby, resetReq := t.resetReq }

theorem SameCpu.refl (s : State) : SameCpu s s := rfl

theorem SameCpu.trans {s t u : State} (h : SameCpu s t) (k : SameCpu t u) : SameCpu s u :=
  Eq.trans k (congrArg (fun y : State => { y with
    ints := u.ints, edges := u.edges, clk := u.clk, bt := u.bt, watch := u.watch, timer0 := u.timer0,
    timer1 := u.timer1, serial := u.serial, adc := u.adc, standby := u.standby, resetReq := u.resetReq }) h)

/-- The fields that the devices leave alone. -/
theorem SameCpu.fields {s t : State} (h : SameCpu s t) :
    t.chip = s.chip ∧ t.rom = s.rom ∧ t.ram = s.ram ∧ t.pc = s.pc ∧ t.cy = s.cy ∧ t.sp = s.sp ∧ t.mbs = s.mbs ∧
      t.rbs = s.rbs ∧ t.ports = s.ports ∧ t.pins = s.pins ∧ t.cycles = s.cycles ∧ t.freeCount = s.freeCount := by
  rw [h]
  exact ⟨rfl, rfl, rfl, rfl, rfl, rfl, rfl, rfl, rfl, rfl, rfl, rfl⟩

theorem standby_sameCpu (s : State) (x : Standby) : SameCpu s { s with standby := x } := rfl
theorem detectEdges_sameCpu (s : State) : SameCpu s s.detectEdges := rfl
theorem modeGlitches_sameCpu (s : State) (e : Elapsed) : SameCpu s (s.modeGlitches e) := rfl
theorem tickPcl_sameCpu (s : State) (e : Elapsed) : SameCpu s (s.tickPcl e) := rfl
theorem advanceWatch_sameCpu (s : State) (e : Elapsed) : SameCpu s (s.advanceWatch e) := rfl
theorem openWindows_sameCpu (s : State) (c : Nat) : SameCpu s (s.openWindows c) := rfl
theorem snapshot_sameCpu (s : State) : SameCpu s s.snapshot := rfl

theorem advanceSerial_sameCpu (s : State) (e : Elapsed) (pe : PinEdges) (b : Bool) (n : Nat) :
    SameCpu s (s.advanceSerial e pe b n) := rfl

theorem advanceNoise_sameCpu (s : State) (e : Elapsed) : SameCpu s (s.advanceNoise e) := by
  unfold State.advanceNoise
  split <;> rfl

theorem countTimers_sameCpu (s : State) (n : Nat) (f : Nat → Nat) : SameCpu s (s.countTimers n f).1 := by
  unfold State.countTimers
  split <;> rfl

theorem advanceBt_sameCpu (s : State) (e : Elapsed) : SameCpu s (s.advanceBt e) := by
  unfold State.advanceBt State.raiseBt
  dsimp only
  split
  · rfl
  · cases s.bt.wdtm <;> split <;> rfl

theorem advanceConversion_sameCpu (s : State) (n : Nat) : SameCpu s (s.advanceConversion n) := by
  unfold State.advanceConversion
  split
  · rfl
  · split <;> rfl

theorem advanceAdc_sameCpu (s : State) (e : Elapsed) : SameCpu s (s.advanceAdc e) := by
  unfold State.advanceAdc
  split
  · split
    · exact advanceConversion_sameCpu s _
    · split
      · exact SameCpu.trans (t := s.beginConversion) rfl (advanceConversion_sameCpu _ _)
      · rfl
  · split <;> rfl

theorem advanceDividers_sameCpu (s : State) (c : Nat) (e : Elapsed) : SameCpu s (s.advanceDividers c e) := by
  unfold State.advanceDividers State.keepRemainders
  split
  · split <;> rfl
  · split <;> rfl

theorem tickSwitch_sameCpu (s : State) (c : Nat) : SameCpu s (s.tickSwitch c) := by
  unfold State.tickSwitch
  split
  · rfl
  · split
    · split <;> rfl
    · rfl

theorem armSwitch_sameCpu (s b : State) : SameCpu s (s.armSwitch b) := by
  unfold State.armSwitch
  dsimp only
  split
  · rfl
  · split
    · rfl
    · exact SameCpu.trans (t := { s with clk := _ }) rfl (tickSwitch_sameCpu _ 0)

theorem advanceTimers_sameCpu (s : State) (e : Elapsed) (pe : PinEdges) : SameCpu s (s.advanceTimers e pe).1 :=
  countTimers_sameCpu s _ _

theorem advanceFor_sameCpu (s : State) (c : Nat) (e : Elapsed) (pe : PinEdges) : SameCpu s (s.advanceFor c e pe) := by
  have h := ((((advanceTimers_sameCpu s e pe).trans
    (advanceSerial_sameCpu _ e pe s.timer0.tout (s.advanceTimers e pe).2)).trans (advanceWatch_sameCpu _ e)).trans
      (advanceAdc_sameCpu _ e)).trans (advanceNoise_sameCpu _ e)
  unfold State.advanceFor
  dsimp only
  refine SameCpu.trans ?_ (advanceDividers_sameCpu _ c e)
  refine SameCpu.trans (SameCpu.trans ?_ (modeGlitches_sameCpu _ e)) (tickPcl_sameCpu _ e)
  split
  · exact h
  · exact h
  · exact h.trans (advanceBt_sameCpu _ e)

/-- Time passes: the CPU, both memories, the ports and the host's inputs are as before. -/
theorem advance_sameCpu (s : State) (c : Nat) (pe : PinEdges) : SameCpu s (s.advance c pe) :=
  (advanceFor_sameCpu s c _ pe).trans (tickSwitch_sameCpu _ _)

theorem quantum_sameCpu (s : State) (c : Nat) : SameCpu s (s.quantum c) :=
  (detectEdges_sameCpu s).trans (advance_sameCpu _ c _)

theorem advanceInstr_sameCpu (s : State) (c : Nat) : SameCpu s (s.advanceInstr c) := by
  unfold State.advanceInstr
  dsimp only
  split
  · exact ((detectEdges_sameCpu s).trans (snapshot_sameCpu _)).trans (advance_sameCpu _ c _)
  · exact (((detectEdges_sameCpu s).trans (advance_sameCpu _ (c - 1) _)).trans (snapshot_sameCpu _)).trans
      (advance_sameCpu _ 1 _)

/-- The devices follow an instruction or an interrupt entry: the state that it left, but for the devices. -/
theorem settle_sameCpu (b t : State) : SameCpu t (settle b t) := by
  unfold settle
  dsimp only
  exact ((((standby_sameCpu t .run).trans (openWindows_sameCpu _ _)).trans (advanceInstr_sameCpu _ _)).trans
    (standby_sameCpu _ t.standby)).trans (armSwitch_sameCpu _ b)

theorem releaseStandby_sameCpu (s : State) : SameCpu s s.releaseStandby := by
  unfold State.releaseStandby
  split <;> rfl

theorem standbyStep_sameCpu (s : State) : SameCpu s s.standbyStep := by
  unfold State.standbyStep
  generalize hc : (if s.release then 0 else 1) = c
  have h := quantum_sameCpu s c
  by_cases k : (s.quantum c).release && !(s.quantum c).resetReq
  · simpa only [hc, k, if_true] using h.trans (releaseStandby_sameCpu _)
  · simpa only [hc, k, Bool.false_eq_true, if_false] using h

end Sys2Proof.Machine
end

