-- ==== Sys2Proof/Laws/Memory.lean ====
section
/-! SUPPORT. The sparse memory: reading after writing, and the canonical form kept by every operation (20_memory.md R80,
R81). -/

namespace Sys2Proof.Machine

variable {α : Type} [DecidableEq α]

/-- A canonical list from `lo` on holds nothing below `lo`. -/
theorem cellRead_below (d : α) (limit : Nat) (m : List (Nat × α)) (lo a : Nat) (h : cellWf d limit lo m = true)
    (ha : a < lo) : cellRead d m a = d := by
  induction m generalizing lo with
  | nil => rfl
  | cons p t ih =>
    obtain ⟨k, w⟩ := p
    simp only [cellWf, Bool.and_eq_true, decide_eq_true_eq] at h
    rw [cellRead, if_neg (by omega)]
    exact ih (k + 1) h.2 (by omega)

/-- A canonical list holds nothing at or above its limit. -/
theorem cellRead_beyond (d : α) (limit : Nat) (m : List (Nat × α)) (lo a : Nat) (h : cellWf d limit lo m = true)
    (ha : limit ≤ a) : cellRead d m a = d := by
  induction m generalizing lo with
  | nil => rfl
  | cons p t ih =>
    obtain ⟨k, w⟩ := p
    simp only [cellWf, Bool.and_eq_true, decide_eq_true_eq] at h
    rw [cellRead, if_neg (by omega)]
    exact ih (k + 1) h.2

/-- A word just written reads back. -/
theorem cellRead_cellWrite_same (d : α) (limit : Nat) (m : List (Nat × α)) (lo a : Nat) (v : α)
    (h : cellWf d limit lo m = true) : cellRead d (cellWrite d m a v) a = v := by
  induction m generalizing lo with
  | nil => by_cases hv : v = d <;> simp [cellWrite, cellRead, hv]
  | cons p t ih =>
    obtain ⟨k, w⟩ := p
    have h' := h
    simp only [cellWf, Bool.and_eq_true, decide_eq_true_eq] at h
    unfold cellWrite
    split
    · split
      · next hk hv =>
        have := cellRead_below d limit ((k, w) :: t) k a (by simp [cellWf, h]) hk
        rw [this, hv]
      · simp [cellRead]
    · split
      · next hk =>
        subst hk
        split
        · next hv => rw [cellRead_below d limit t (a + 1) a h.2 (by omega), hv]
        · simp [cellRead]
      · next hk =>
        rw [cellRead, if_neg hk]
        exact ih (k + 1) h.2

/-- Every other word is as before. -/
theorem cellRead_cellWrite_other (d : α) (m : List (Nat × α)) (a b : Nat) (v : α) (hb : b ≠ a) :
    cellRead d (cellWrite d m a v) b = cellRead d m b := by
  induction m with
  | nil => by_cases hv : v = d <;> simp [cellWrite, cellRead, hv, hb]
  | cons p t ih =>
    obtain ⟨k, w⟩ := p
    unfold cellWrite
    split
    · split
      · rfl
      · simp [cellRead, hb]
    · split
      · next hk =>
        subst hk
        split <;> simp [cellRead, hb]
      · simp [cellRead, ih]

/-- A write keeps the canonical form. -/
theorem cellWf_cellWrite (d : α) (limit : Nat) (m : List (Nat × α)) (lo a : Nat) (v : α)
    (h : cellWf d limit lo m = true) (hlo : lo ≤ a) (ha : a < limit) :
    cellWf d limit lo (cellWrite d m a v) = true := by
  induction m generalizing lo with
  | nil => by_cases hv : v = d <;> simp [cellWrite, cellWf, hv, hlo, ha]
  | cons p t ih =>
    obtain ⟨k, w⟩ := p
    have h0 := h
    simp only [cellWf, Bool.and_eq_true, decide_eq_true_eq] at h
    unfold cellWrite
    split
    · split
      · exact h0
      · next hk hv =>
        simp only [cellWf, Bool.and_eq_true, decide_eq_true_eq]
        exact ⟨⟨⟨hlo, ha⟩, hv⟩, ⟨⟨by omega, h.1.1.2⟩, h.1.2⟩, h.2⟩
    · split
      · next hk =>
        subst hk
        split
        · have weaken : ∀ (l : List (Nat × α)) (x y : Nat), x ≤ y → cellWf d limit y l = true → cellWf d limit x l = true := by
            intro l x y hxy hl
            cases l with
            | nil => rfl
            | cons q r =>
              obtain ⟨j, u⟩ := q
              simp only [cellWf, Bool.and_eq_true, decide_eq_true_eq] at hl ⊢
              exact ⟨⟨⟨by omega, hl.1.1.2⟩, hl.1.2⟩, hl.2⟩
          exact weaken t lo (a + 1) (by omega) h.2
        · next hv =>
          simp only [cellWf, Bool.and_eq_true, decide_eq_true_eq]
          exact ⟨⟨⟨hlo, ha⟩, hv⟩, h.2⟩
      · simp only [cellWf, Bool.and_eq_true, decide_eq_true_eq]
        exact ⟨h.1, ih (k + 1) h.2 (by omega)⟩

/-- `Memory.wf` is kept by a write below the limit. -/
theorem Memory.wf_write (d : α) (limit : Nat) (m : List (Nat × α)) (a : Nat) (v : α)
    (h : Memory.wf d limit m = true) (ha : a < limit) : Memory.wf d limit (cellWrite d m a v) = true :=
  cellWf_cellWrite d limit m 0 a v h (Nat.zero_le a) ha

/-- A filled memory is in canonical form. -/
theorem Memory.wf_fill (d : α) (limit : Nat) (f : Nat → α) (n : Nat) (hn : n ≤ limit) :
    Memory.wf d limit (cellFill d f n) = true := by
  induction n with
  | zero => rfl
  | succ n ih => exact Memory.wf_write d limit _ n (f n) (ih (by omega)) (by omega)

/-- A filled memory holds the values it was filled with. -/
theorem cellRead_cellFill (d : α) (f : Nat → α) (n a : Nat) (ha : a < n) : cellRead d (cellFill d f n) a = f a := by
  induction n with
  | zero => omega
  | succ n ih =>
    by_cases h : a = n
    · subst h
      exact cellRead_cellWrite_same d (a + 1) _ 0 a (f a) (Memory.wf_fill d (a + 1) f a (by omega))
    · rw [cellFill, cellRead_cellWrite_other d _ n a (f n) h]
      exact ih (by omega)

end Sys2Proof.Machine
end

