-- ==== Sys2Proof/Laws/State.lean ====
section
/-! SUPPORT. What each update of the machine leaves alone: one lemma for each field and update. -/

namespace Sys2Proof.Machine

@[simp] theorem State.ended_chip (s : State) (c : Nat) : (s.ended c).chip = s.chip := rfl
@[simp] theorem State.ended_rom (s : State) (c : Nat) : (s.ended c).rom = s.rom := rfl
@[simp] theorem State.ended_ram (s : State) (c : Nat) : (s.ended c).ram = s.ram := rfl
@[simp] theorem State.ended_pc (s : State) (c : Nat) : (s.ended c).pc = s.pc := rfl
@[simp] theorem State.ended_cy (s : State) (c : Nat) : (s.ended c).cy = s.cy := rfl
@[simp] theorem State.ended_ist (s : State) (c : Nat) : (s.ended c).ist = s.ist := rfl
@[simp] theorem State.ended_mbe (s : State) (c : Nat) : (s.ended c).mbe = s.mbe := rfl
@[simp] theorem State.ended_rbe (s : State) (c : Nat) : (s.ended c).rbe = s.rbe := rfl
@[simp] theorem State.ended_sp (s : State) (c : Nat) : (s.ended c).sp = s.sp := rfl
@[simp] theorem State.ended_sbs (s : State) (c : Nat) : (s.ended c).sbs = s.sbs := rfl
@[simp] theorem State.ended_mbs (s : State) (c : Nat) : (s.ended c).mbs = s.mbs := rfl
@[simp] theorem State.ended_rbs (s : State) (c : Nat) : (s.ended c).rbs = s.rbs := rfl
@[simp] theorem State.ended_ints (s : State) (c : Nat) : (s.ended c).ints = s.ints := rfl
@[simp] theorem State.ended_edges (s : State) (c : Nat) : (s.ended c).edges = s.edges := rfl
@[simp] theorem State.ended_clk (s : State) (c : Nat) : (s.ended c).clk = s.clk := rfl
@[simp] theorem State.ended_bt (s : State) (c : Nat) : (s.ended c).bt = s.bt := rfl
@[simp] theorem State.ended_watch (s : State) (c : Nat) : (s.ended c).watch = s.watch := rfl
@[simp] theorem State.ended_timer0 (s : State) (c : Nat) : (s.ended c).timer0 = s.timer0 := rfl
@[simp] theorem State.ended_timer1 (s : State) (c : Nat) : (s.ended c).timer1 = s.timer1 := rfl
@[simp] theorem State.ended_serial (s : State) (c : Nat) : (s.ended c).serial = s.serial := rfl
@[simp] theorem State.ended_adc (s : State) (c : Nat) : (s.ended c).adc = s.adc := rfl
@[simp] theorem State.ended_bsb0 (s : State) (c : Nat) : (s.ended c).bsb0 = s.bsb0 := rfl
@[simp] theorem State.ended_bsb1 (s : State) (c : Nat) : (s.ended c).bsb1 = s.bsb1 := rfl
@[simp] theorem State.ended_bsb2 (s : State) (c : Nat) : (s.ended c).bsb2 = s.bsb2 := rfl
@[simp] theorem State.ended_bsb3 (s : State) (c : Nat) : (s.ended c).bsb3 = s.bsb3 := rfl
@[simp] theorem State.ended_ports (s : State) (c : Nat) : (s.ended c).ports = s.ports := rfl
@[simp] theorem State.ended_standby (s : State) (c : Nat) : (s.ended c).standby = s.standby := rfl
@[simp] theorem State.ended_resetReq (s : State) (c : Nat) : (s.ended c).resetReq = s.resetReq := rfl
@[simp] theorem State.ended_pins (s : State) (c : Nat) : (s.ended c).pins = s.pins := rfl
@[simp] theorem State.ended_pinQueue (s : State) (c : Nat) : (s.ended c).pinQueue = s.pinQueue := rfl
@[simp] theorem State.ended_startedAt (s : State) (c : Nat) : (s.ended c).startedAt = s.startedAt := rfl
@[simp] theorem State.ended_freeCount (s : State) (c : Nat) : (s.ended c).freeCount = s.freeCount := rfl

@[simp] theorem State.ended_cycles (s : State) (c : Nat) : (s.ended c).cycles = s.cycles + c := rfl
@[simp] theorem State.ended_stacked (s : State) (c : Nat) : (s.ended c).stacked = .none := rfl
@[simp] theorem State.ended_addsNoskip (s : State) (c : Nat) : (s.ended c).addsNoskip = false := rfl

@[simp] theorem State.setPc_chip (s : State) (t : Nat) : (s.setPc t).chip = s.chip := rfl
@[simp] theorem State.setPc_rom (s : State) (t : Nat) : (s.setPc t).rom = s.rom := rfl
@[simp] theorem State.setPc_ram (s : State) (t : Nat) : (s.setPc t).ram = s.ram := rfl
@[simp] theorem State.setPc_cy (s : State) (t : Nat) : (s.setPc t).cy = s.cy := rfl
@[simp] theorem State.setPc_stacked (s : State) (t : Nat) : (s.setPc t).stacked = s.stacked := rfl
@[simp] theorem State.setPc_addsNoskip (s : State) (t : Nat) : (s.setPc t).addsNoskip = s.addsNoskip := rfl
@[simp] theorem State.setPc_ist (s : State) (t : Nat) : (s.setPc t).ist = s.ist := rfl
@[simp] theorem State.setPc_mbe (s : State) (t : Nat) : (s.setPc t).mbe = s.mbe := rfl
@[simp] theorem State.setPc_rbe (s : State) (t : Nat) : (s.setPc t).rbe = s.rbe := rfl
@[simp] theorem State.setPc_sp (s : State) (t : Nat) : (s.setPc t).sp = s.sp := rfl
@[simp] theorem State.setPc_sbs (s : State) (t : Nat) : (s.setPc t).sbs = s.sbs := rfl
@[simp] theorem State.setPc_mbs (s : State) (t : Nat) : (s.setPc t).mbs = s.mbs := rfl
@[simp] theorem State.setPc_rbs (s : State) (t : Nat) : (s.setPc t).rbs = s.rbs := rfl
@[simp] theorem State.setPc_ints (s : State) (t : Nat) : (s.setPc t).ints = s.ints := rfl
@[simp] theorem State.setPc_edges (s : State) (t : Nat) : (s.setPc t).edges = s.edges := rfl
@[simp] theorem State.setPc_clk (s : State) (t : Nat) : (s.setPc t).clk = s.clk := rfl
@[simp] theorem State.setPc_bt (s : State) (t : Nat) : (s.setPc t).bt = s.bt := rfl
@[simp] theorem State.setPc_watch (s : State) (t : Nat) : (s.setPc t).watch = s.watch := rfl
@[simp] theorem State.setPc_timer0 (s : State) (t : Nat) : (s.setPc t).timer0 = s.timer0 := rfl
@[simp] theorem State.setPc_timer1 (s : State) (t : Nat) : (s.setPc t).timer1 = s.timer1 := rfl
@[simp] theorem State.setPc_serial (s : State) (t : Nat) : (s.setPc t).serial = s.serial := rfl
@[simp] theorem State.setPc_adc (s : State) (t : Nat) : (s.setPc t).adc = s.adc := rfl
@[simp] theorem State.setPc_bsb0 (s : State) (t : Nat) : (s.setPc t).bsb0 = s.bsb0 := rfl
@[simp] theorem State.setPc_bsb1 (s : State) (t : Nat) : (s.setPc t).bsb1 = s.bsb1 := rfl
@[simp] theorem State.setPc_bsb2 (s : State) (t : Nat) : (s.setPc t).bsb2 = s.bsb2 := rfl
@[simp] theorem State.setPc_bsb3 (s : State) (t : Nat) : (s.setPc t).bsb3 = s.bsb3 := rfl
@[simp] theorem State.setPc_ports (s : State) (t : Nat) : (s.setPc t).ports = s.ports := rfl
@[simp] theorem State.setPc_standby (s : State) (t : Nat) : (s.setPc t).standby = s.standby := rfl
@[simp] theorem State.setPc_resetReq (s : State) (t : Nat) : (s.setPc t).resetReq = s.resetReq := rfl
@[simp] theorem State.setPc_pins (s : State) (t : Nat) : (s.setPc t).pins = s.pins := rfl
@[simp] theorem State.setPc_pinQueue (s : State) (t : Nat) : (s.setPc t).pinQueue = s.pinQueue := rfl
@[simp] theorem State.setPc_cycles (s : State) (t : Nat) : (s.setPc t).cycles = s.cycles := rfl
@[simp] theorem State.setPc_startedAt (s : State) (t : Nat) : (s.setPc t).startedAt = s.startedAt := rfl
@[simp] theorem State.setPc_freeCount (s : State) (t : Nat) : (s.setPc t).freeCount = s.freeCount := rfl

@[simp] theorem State.setPc_pc (s : State) (t : Nat) : (s.setPc t).pc = s.truncPc t := rfl

@[simp] theorem State.setCy_chip (s : State) (c : Bool) : (s.setCy c).chip = s.chip := rfl
@[simp] theorem State.setCy_rom (s : State) (c : Bool) : (s.setCy c).rom = s.rom := rfl
@[simp] theorem State.setCy_ram (s : State) (c : Bool) : (s.setCy c).ram = s.ram := rfl
@[simp] theorem State.setCy_pc (s : State) (c : Bool) : (s.setCy c).pc = s.pc := rfl
@[simp] theorem State.setCy_stacked (s : State) (c : Bool) : (s.setCy c).stacked = s.stacked := rfl
@[simp] theorem State.setCy_addsNoskip (s : State) (c : Bool) : (s.setCy c).addsNoskip = s.addsNoskip := rfl
@[simp] theorem State.setCy_ist (s : State) (c : Bool) : (s.setCy c).ist = s.ist := rfl
@[simp] theorem State.setCy_mbe (s : State) (c : Bool) : (s.setCy c).mbe = s.mbe := rfl
@[simp] theorem State.setCy_rbe (s : State) (c : Bool) : (s.setCy c).rbe = s.rbe := rfl
@[simp] theorem State.setCy_sp (s : State) (c : Bool) : (s.setCy c).sp = s.sp := rfl
@[simp] theorem State.setCy_sbs (s : State) (c : Bool) : (s.setCy c).sbs = s.sbs := rfl
@[simp] theorem State.setCy_mbs (s : State) (c : Bool) : (s.setCy c).mbs = s.mbs := rfl
@[simp] theorem State.setCy_rbs (s : State) (c : Bool) : (s.setCy c).rbs = s.rbs := rfl
@[simp] theorem State.setCy_ints (s : State) (c : Bool) : (s.setCy c).ints = s.ints := rfl
@[simp] theorem State.setCy_edges (s : State) (c : Bool) : (s.setCy c).edges = s.edges := rfl
@[simp] theorem State.setCy_clk (s : State) (c : Bool) : (s.setCy c).clk = s.clk := rfl
@[simp] theorem State.setCy_bt (s : State) (c : Bool) : (s.setCy c).bt = s.bt := rfl
@[simp] theorem State.setCy_watch (s : State) (c : Bool) : (s.setCy c).watch = s.watch := rfl
@[simp] theorem State.setCy_timer0 (s : State) (c : Bool) : (s.setCy c).timer0 = s.timer0 := rfl
@[simp] theorem State.setCy_timer1 (s : State) (c : Bool) : (s.setCy c).timer1 = s.timer1 := rfl
@[simp] theorem State.setCy_serial (s : State) (c : Bool) : (s.setCy c).serial = s.serial := rfl
@[simp] theorem State.setCy_adc (s : State) (c : Bool) : (s.setCy c).adc = s.adc := rfl
@[simp] theorem State.setCy_bsb0 (s : State) (c : Bool) : (s.setCy c).bsb0 = s.bsb0 := rfl
@[simp] theorem State.setCy_bsb1 (s : State) (c : Bool) : (s.setCy c).bsb1 = s.bsb1 := rfl
@[simp] theorem State.setCy_bsb2 (s : State) (c : Bool) : (s.setCy c).bsb2 = s.bsb2 := rfl
@[simp] theorem State.setCy_bsb3 (s : State) (c : Bool) : (s.setCy c).bsb3 = s.bsb3 := rfl
@[simp] theorem State.setCy_ports (s : State) (c : Bool) : (s.setCy c).ports = s.ports := rfl
@[simp] theorem State.setCy_standby (s : State) (c : Bool) : (s.setCy c).standby = s.standby := rfl
@[simp] theorem State.setCy_resetReq (s : State) (c : Bool) : (s.setCy c).resetReq = s.resetReq := rfl
@[simp] theorem State.setCy_pins (s : State) (c : Bool) : (s.setCy c).pins = s.pins := rfl
@[simp] theorem State.setCy_pinQueue (s : State) (c : Bool) : (s.setCy c).pinQueue = s.pinQueue := rfl
@[simp] theorem State.setCy_cycles (s : State) (c : Bool) : (s.setCy c).cycles = s.cycles := rfl
@[simp] theorem State.setCy_startedAt (s : State) (c : Bool) : (s.setCy c).startedAt = s.startedAt := rfl
@[simp] theorem State.setCy_freeCount (s : State) (c : Bool) : (s.setCy c).freeCount = s.freeCount := rfl

@[simp] theorem State.setCy_cy (s : State) (c : Bool) : (s.setCy c).cy = c := rfl

@[simp] theorem State.moveSp_chip (s : State) (k : BitVec 8) : (s.moveSp k).chip = s.chip := rfl
@[simp] theorem State.moveSp_rom (s : State) (k : BitVec 8) : (s.moveSp k).rom = s.rom := rfl
@[simp] theorem State.moveSp_ram (s : State) (k : BitVec 8) : (s.moveSp k).ram = s.ram := rfl
@[simp] theorem State.moveSp_pc (s : State) (k : BitVec 8) : (s.moveSp k).pc = s.pc := rfl
@[simp] theorem State.moveSp_cy (s : State) (k : BitVec 8) : (s.moveSp k).cy = s.cy := rfl
@[simp] theorem State.moveSp_stacked (s : State) (k : BitVec 8) : (s.moveSp k).stacked = s.stacked := rfl
@[simp] theorem State.moveSp_addsNoskip (s : State) (k : BitVec 8) : (s.moveSp k).addsNoskip = s.addsNoskip := rfl
@[simp] theorem State.moveSp_ist (s : State) (k : BitVec 8) : (s.moveSp k).ist = s.ist := rfl
@[simp] theorem State.moveSp_mbe (s : State) (k : BitVec 8) : (s.moveSp k).mbe = s.mbe := rfl
@[simp] theorem State.moveSp_rbe (s : State) (k : BitVec 8) : (s.moveSp k).rbe = s.rbe := rfl
@[simp] theorem State.moveSp_sbs (s : State) (k : BitVec 8) : (s.moveSp k).sbs = s.sbs := rfl
@[simp] theorem State.moveSp_mbs (s : State) (k : BitVec 8) : (s.moveSp k).mbs = s.mbs := rfl
@[simp] theorem State.moveSp_rbs (s : State) (k : BitVec 8) : (s.moveSp k).rbs = s.rbs := rfl
@[simp] theorem State.moveSp_ints (s : State) (k : BitVec 8) : (s.moveSp k).ints = s.ints := rfl
@[simp] theorem State.moveSp_edges (s : State) (k : BitVec 8) : (s.moveSp k).edges = s.edges := rfl
@[simp] theorem State.moveSp_clk (s : State) (k : BitVec 8) : (s.moveSp k).clk = s.clk := rfl
@[simp] theorem State.moveSp_bt (s : State) (k : BitVec 8) : (s.moveSp k).bt = s.bt := rfl
@[simp] theorem State.moveSp_watch (s : State) (k : BitVec 8) : (s.moveSp k).watch = s.watch := rfl
@[simp] theorem State.moveSp_timer0 (s : State) (k : BitVec 8) : (s.moveSp k).timer0 = s.timer0 := rfl
@[simp] theorem State.moveSp_timer1 (s : State) (k : BitVec 8) : (s.moveSp k).timer1 = s.timer1 := rfl
@[simp] theorem State.moveSp_serial (s : State) (k : BitVec 8) : (s.moveSp k).serial = s.serial := rfl
@[simp] theorem State.moveSp_adc (s : State) (k : BitVec 8) : (s.moveSp k).adc = s.adc := rfl
@[simp] theorem State.moveSp_bsb0 (s : State) (k : BitVec 8) : (s.moveSp k).bsb0 = s.bsb0 := rfl
@[simp] theorem State.moveSp_bsb1 (s : State) (k : BitVec 8) : (s.moveSp k).bsb1 = s.bsb1 := rfl
@[simp] theorem State.moveSp_bsb2 (s : State) (k : BitVec 8) : (s.moveSp k).bsb2 = s.bsb2 := rfl
@[simp] theorem State.moveSp_bsb3 (s : State) (k : BitVec 8) : (s.moveSp k).bsb3 = s.bsb3 := rfl
@[simp] theorem State.moveSp_ports (s : State) (k : BitVec 8) : (s.moveSp k).ports = s.ports := rfl
@[simp] theorem State.moveSp_standby (s : State) (k : BitVec 8) : (s.moveSp k).standby = s.standby := rfl
@[simp] theorem State.moveSp_resetReq (s : State) (k : BitVec 8) : (s.moveSp k).resetReq = s.resetReq := rfl
@[simp] theorem State.moveSp_pins (s : State) (k : BitVec 8) : (s.moveSp k).pins = s.pins := rfl
@[simp] theorem State.moveSp_pinQueue (s : State) (k : BitVec 8) : (s.moveSp k).pinQueue = s.pinQueue := rfl
@[simp] theorem State.moveSp_cycles (s : State) (k : BitVec 8) : (s.moveSp k).cycles = s.cycles := rfl
@[simp] theorem State.moveSp_startedAt (s : State) (k : BitVec 8) : (s.moveSp k).startedAt = s.startedAt := rfl
@[simp] theorem State.moveSp_freeCount (s : State) (k : BitVec 8) : (s.moveSp k).freeCount = s.freeCount := rfl

@[simp] theorem State.moveSp_sp (s : State) (k : BitVec 8) : (s.moveSp k).sp = (s.sp + k) &&& 0xFE := rfl

@[simp] theorem State.touch_chip (s : State) (a : DAddr) : (s.touch a).chip = s.chip := rfl
@[simp] theorem State.touch_rom (s : State) (a : DAddr) : (s.touch a).rom = s.rom := rfl
@[simp] theorem State.touch_ram (s : State) (a : DAddr) : (s.touch a).ram = s.ram := rfl
@[simp] theorem State.touch_pc (s : State) (a : DAddr) : (s.touch a).pc = s.pc := rfl
@[simp] theorem State.touch_cy (s : State) (a : DAddr) : (s.touch a).cy = s.cy := rfl
@[simp] theorem State.touch_stacked (s : State) (a : DAddr) : (s.touch a).stacked = s.stacked := rfl
@[simp] theorem State.touch_addsNoskip (s : State) (a : DAddr) : (s.touch a).addsNoskip = s.addsNoskip := rfl
@[simp] theorem State.touch_ist (s : State) (a : DAddr) : (s.touch a).ist = s.ist := rfl
@[simp] theorem State.touch_mbe (s : State) (a : DAddr) : (s.touch a).mbe = s.mbe := rfl
@[simp] theorem State.touch_rbe (s : State) (a : DAddr) : (s.touch a).rbe = s.rbe := rfl
@[simp] theorem State.touch_sp (s : State) (a : DAddr) : (s.touch a).sp = s.sp := rfl
@[simp] theorem State.touch_sbs (s : State) (a : DAddr) : (s.touch a).sbs = s.sbs := rfl
@[simp] theorem State.touch_mbs (s : State) (a : DAddr) : (s.touch a).mbs = s.mbs := rfl
@[simp] theorem State.touch_rbs (s : State) (a : DAddr) : (s.touch a).rbs = s.rbs := rfl
@[simp] theorem State.touch_edges (s : State) (a : DAddr) : (s.touch a).edges = s.edges := rfl
@[simp] theorem State.touch_clk (s : State) (a : DAddr) : (s.touch a).clk = s.clk := rfl
@[simp] theorem State.touch_bt (s : State) (a : DAddr) : (s.touch a).bt = s.bt := rfl
@[simp] theorem State.touch_watch (s : State) (a : DAddr) : (s.touch a).watch = s.watch := rfl
@[simp] theorem State.touch_timer0 (s : State) (a : DAddr) : (s.touch a).timer0 = s.timer0 := rfl
@[simp] theorem State.touch_timer1 (s : State) (a : DAddr) : (s.touch a).timer1 = s.timer1 := rfl
@[simp] theorem State.touch_serial (s : State) (a : DAddr) : (s.touch a).serial = s.serial := rfl
@[simp] theorem State.touch_adc (s : State) (a : DAddr) : (s.touch a).adc = s.adc := rfl
@[simp] theorem State.touch_bsb0 (s : State) (a : DAddr) : (s.touch a).bsb0 = s.bsb0 := rfl
@[simp] theorem State.touch_bsb1 (s : State) (a : DAddr) : (s.touch a).bsb1 = s.bsb1 := rfl
@[simp] theorem State.touch_bsb2 (s : State) (a : DAddr) : (s.touch a).bsb2 = s.bsb2 := rfl
@[simp] theorem State.touch_bsb3 (s : State) (a : DAddr) : (s.touch a).bsb3 = s.bsb3 := rfl
@[simp] theorem State.touch_ports (s : State) (a : DAddr) : (s.touch a).ports = s.ports := rfl
@[simp] theorem State.touch_standby (s : State) (a : DAddr) : (s.touch a).standby = s.standby := rfl
@[simp] theorem State.touch_resetReq (s : State) (a : DAddr) : (s.touch a).resetReq = s.resetReq := rfl
@[simp] theorem State.touch_pins (s : State) (a : DAddr) : (s.touch a).pins = s.pins := rfl
@[simp] theorem State.touch_pinQueue (s : State) (a : DAddr) : (s.touch a).pinQueue = s.pinQueue := rfl
@[simp] theorem State.touch_cycles (s : State) (a : DAddr) : (s.touch a).cycles = s.cycles := rfl
@[simp] theorem State.touch_startedAt (s : State) (a : DAddr) : (s.touch a).startedAt = s.startedAt := rfl
@[simp] theorem State.touch_freeCount (s : State) (a : DAddr) : (s.touch a).freeCount = s.freeCount := rfl

@[simp] theorem State.ramWrite_chip (s : State) (a : DAddr) (v : Nibble) : (s.ramWrite a v).chip = s.chip := by
  unfold State.ramWrite; split <;> rfl
@[simp] theorem State.ramWrite_rom (s : State) (a : DAddr) (v : Nibble) : (s.ramWrite a v).rom = s.rom := by
  unfold State.ramWrite; split <;> rfl
@[simp] theorem State.ramWrite_pc (s : State) (a : DAddr) (v : Nibble) : (s.ramWrite a v).pc = s.pc := by
  unfold State.ramWrite; split <;> rfl
@[simp] theorem State.ramWrite_cy (s : State) (a : DAddr) (v : Nibble) : (s.ramWrite a v).cy = s.cy := by
  unfold State.ramWrite; split <;> rfl
@[simp] theorem State.ramWrite_stacked (s : State) (a : DAddr) (v : Nibble) : (s.ramWrite a v).stacked = s.stacked := by
  unfold State.ramWrite; split <;> rfl
@[simp] theorem State.ramWrite_addsNoskip (s : State) (a : DAddr) (v : Nibble) : (s.ramWrite a v).addsNoskip = s.addsNoskip := by
  unfold State.ramWrite; split <;> rfl
@[simp] theorem State.ramWrite_ist (s : State) (a : DAddr) (v : Nibble) : (s.ramWrite a v).ist = s.ist := by
  unfold State.ramWrite; split <;> rfl
@[simp] theorem State.ramWrite_mbe (s : State) (a : DAddr) (v : Nibble) : (s.ramWrite a v).mbe = s.mbe := by
  unfold State.ramWrite; split <;> rfl
@[simp] theorem State.ramWrite_rbe (s : State) (a : DAddr) (v : Nibble) : (s.ramWrite a v).rbe = s.rbe := by
  unfold State.ramWrite; split <;> rfl
@[simp] theorem State.ramWrite_sp (s : State) (a : DAddr) (v : Nibble) : (s.ramWrite a v).sp = s.sp := by
  unfold State.ramWrite; split <;> rfl
@[simp] theorem State.ramWrite_sbs (s : State) (a : DAddr) (v : Nibble) : (s.ramWrite a v).sbs = s.sbs := by
  unfold State.ramWrite; split <;> rfl
@[simp] theorem State.ramWrite_mbs (s : State) (a : DAddr) (v : Nibble) : (s.ramWrite a v).mbs = s.mbs := by
  unfold State.ramWrite; split <;> rfl
@[simp] theorem State.ramWrite_rbs (s : State) (a : DAddr) (v : Nibble) : (s.ramWrite a v).rbs = s.rbs := by
  unfold State.ramWrite; split <;> rfl
@[simp] theorem State.ramWrite_ints (s : State) (a : DAddr) (v : Nibble) : (s.ramWrite a v).ints = s.ints := by
  unfold State.ramWrite; split <;> rfl
@[simp] theorem State.ramWrite_edges (s : State) (a : DAddr) (v : Nibble) : (s.ramWrite a v).edges = s.edges := by
  unfold State.ramWrite; split <;> rfl
@[simp] theorem State.ramWrite_clk (s : State) (a : DAddr) (v : Nibble) : (s.ramWrite a v).clk = s.clk := by
  unfold State.ramWrite; split <;> rfl
@[simp] theorem State.ramWrite_bt (s : State) (a : DAddr) (v : Nibble) : (s.ramWrite a v).bt = s.bt := by
  unfold State.ramWrite; split <;> rfl
@[simp] theorem State.ramWrite_watch (s : State) (a : DAddr) (v : Nibble) : (s.ramWrite a v).watch = s.watch := by
  unfold State.ramWrite; split <;> rfl
@[simp] theorem State.ramWrite_timer0 (s : State) (a : DAddr) (v : Nibble) : (s.ramWrite a v).timer0 = s.timer0 := by
  unfold State.ramWrite; split <;> rfl
@[simp] theorem State.ramWrite_timer1 (s : State) (a : DAddr) (v : Nibble) : (s.ramWrite a v).timer1 = s.timer1 := by
  unfold State.ramWrite; split <;> rfl
@[simp] theorem State.ramWrite_serial (s : State) (a : DAddr) (v : Nibble) : (s.ramWrite a v).serial = s.serial := by
  unfold State.ramWrite; split <;> rfl
@[simp] theorem State.ramWrite_adc (s : State) (a : DAddr) (v : Nibble) : (s.ramWrite a v).adc = s.adc := by
  unfold State.ramWrite; split <;> rfl
@[simp] theorem State.ramWrite_bsb0 (s : State) (a : DAddr) (v : Nibble) : (s.ramWrite a v).bsb0 = s.bsb0 := by
  unfold State.ramWrite; split <;> rfl
@[simp] theorem State.ramWrite_bsb1 (s : State) (a : DAddr) (v : Nibble) : (s.ramWrite a v).bsb1 = s.bsb1 := by
  unfold State.ramWrite; split <;> rfl
@[simp] theorem State.ramWrite_bsb2 (s : State) (a : DAddr) (v : Nibble) : (s.ramWrite a v).bsb2 = s.bsb2 := by
  unfold State.ramWrite; split <;> rfl
@[simp] theorem State.ramWrite_bsb3 (s : State) (a : DAddr) (v : Nibble) : (s.ramWrite a v).bsb3 = s.bsb3 := by
  unfold State.ramWrite; split <;> rfl
@[simp] theorem State.ramWrite_ports (s : State) (a : DAddr) (v : Nibble) : (s.ramWrite a v).ports = s.ports := by
  unfold State.ramWrite; split <;> rfl
@[simp] theorem State.ramWrite_standby (s : State) (a : DAddr) (v : Nibble) : (s.ramWrite a v).standby = s.standby := by
  unfold State.ramWrite; split <;> rfl
@[simp] theorem State.ramWrite_resetReq (s : State) (a : DAddr) (v : Nibble) : (s.ramWrite a v).resetReq = s.resetReq := by
  unfold State.ramWrite; split <;> rfl
@[simp] theorem State.ramWrite_pins (s : State) (a : DAddr) (v : Nibble) : (s.ramWrite a v).pins = s.pins := by
  unfold State.ramWrite; split <;> rfl
@[simp] theorem State.ramWrite_pinQueue (s : State) (a : DAddr) (v : Nibble) : (s.ramWrite a v).pinQueue = s.pinQueue := by
  unfold State.ramWrite; split <;> rfl
@[simp] theorem State.ramWrite_cycles (s : State) (a : DAddr) (v : Nibble) : (s.ramWrite a v).cycles = s.cycles := by
  unfold State.ramWrite; split <;> rfl
@[simp] theorem State.ramWrite_startedAt (s : State) (a : DAddr) (v : Nibble) : (s.ramWrite a v).startedAt = s.startedAt := by
  unfold State.ramWrite; split <;> rfl
@[simp] theorem State.ramWrite_freeCount (s : State) (a : DAddr) (v : Nibble) : (s.ramWrite a v).freeCount = s.freeCount := by
  unfold State.ramWrite; split <;> rfl

@[simp] theorem State.setReg_chip (s : State) (r : Reg) (v : Nibble) : (s.setReg r v).chip = s.chip := by
  simp [State.setReg]
@[simp] theorem State.setReg_rom (s : State) (r : Reg) (v : Nibble) : (s.setReg r v).rom = s.rom := by
  simp [State.setReg]
@[simp] theorem State.setReg_pc (s : State) (r : Reg) (v : Nibble) : (s.setReg r v).pc = s.pc := by
  simp [State.setReg]
@[simp] theorem State.setReg_cy (s : State) (r : Reg) (v : Nibble) : (s.setReg r v).cy = s.cy := by
  simp [State.setReg]
@[simp] theorem State.setReg_stacked (s : State) (r : Reg) (v : Nibble) : (s.setReg r v).stacked = s.stacked := by
  simp [State.setReg]
@[simp] theorem State.setReg_addsNoskip (s : State) (r : Reg) (v : Nibble) : (s.setReg r v).addsNoskip = s.addsNoskip := by
  simp [State.setReg]
@[simp] theorem State.setReg_ist (s : State) (r : Reg) (v : Nibble) : (s.setReg r v).ist = s.ist := by
  simp [State.setReg]
@[simp] theorem State.setReg_mbe (s : State) (r : Reg) (v : Nibble) : (s.setReg r v).mbe = s.mbe := by
  simp [State.setReg]
@[simp] theorem State.setReg_rbe (s : State) (r : Reg) (v : Nibble) : (s.setReg r v).rbe = s.rbe := by
  simp [State.setReg]
@[simp] theorem State.setReg_sp (s : State) (r : Reg) (v : Nibble) : (s.setReg r v).sp = s.sp := by
  simp [State.setReg]
@[simp] theorem State.setReg_sbs (s : State) (r : Reg) (v : Nibble) : (s.setReg r v).sbs = s.sbs := by
  simp [State.setReg]
@[simp] theorem State.setReg_mbs (s : State) (r : Reg) (v : Nibble) : (s.setReg r v).mbs = s.mbs := by
  simp [State.setReg]
@[simp] theorem State.setReg_rbs (s : State) (r : Reg) (v : Nibble) : (s.setReg r v).rbs = s.rbs := by
  simp [State.setReg]
@[simp] theorem State.setReg_ints (s : State) (r : Reg) (v : Nibble) : (s.setReg r v).ints = s.ints := by
  simp [State.setReg]
@[simp] theorem State.setReg_edges (s : State) (r : Reg) (v : Nibble) : (s.setReg r v).edges = s.edges := by
  simp [State.setReg]
@[simp] theorem State.setReg_clk (s : State) (r : Reg) (v : Nibble) : (s.setReg r v).clk = s.clk := by
  simp [State.setReg]
@[simp] theorem State.setReg_bt (s : State) (r : Reg) (v : Nibble) : (s.setReg r v).bt = s.bt := by
  simp [State.setReg]
@[simp] theorem State.setReg_watch (s : State) (r : Reg) (v : Nibble) : (s.setReg r v).watch = s.watch := by
  simp [State.setReg]
@[simp] theorem State.setReg_timer0 (s : State) (r : Reg) (v : Nibble) : (s.setReg r v).timer0 = s.timer0 := by
  simp [State.setReg]
@[simp] theorem State.setReg_timer1 (s : State) (r : Reg) (v : Nibble) : (s.setReg r v).timer1 = s.timer1 := by
  simp [State.setReg]
@[simp] theorem State.setReg_serial (s : State) (r : Reg) (v : Nibble) : (s.setReg r v).serial = s.serial := by
  simp [State.setReg]
@[simp] theorem State.setReg_adc (s : State) (r : Reg) (v : Nibble) : (s.setReg r v).adc = s.adc := by
  simp [State.setReg]
@[simp] theorem State.setReg_bsb0 (s : State) (r : Reg) (v : Nibble) : (s.setReg r v).bsb0 = s.bsb0 := by
  simp [State.setReg]
@[simp] theorem State.setReg_bsb1 (s : State) (r : Reg) (v : Nibble) : (s.setReg r v).bsb1 = s.bsb1 := by
  simp [State.setReg]
@[simp] theorem State.setReg_bsb2 (s : State) (r : Reg) (v : Nibble) : (s.setReg r v).bsb2 = s.bsb2 := by
  simp [State.setReg]
@[simp] theorem State.setReg_bsb3 (s : State) (r : Reg) (v : Nibble) : (s.setReg r v).bsb3 = s.bsb3 := by
  simp [State.setReg]
@[simp] theorem State.setReg_ports (s : State) (r : Reg) (v : Nibble) : (s.setReg r v).ports = s.ports := by
  simp [State.setReg]
@[simp] theorem State.setReg_standby (s : State) (r : Reg) (v : Nibble) : (s.setReg r v).standby = s.standby := by
  simp [State.setReg]
@[simp] theorem State.setReg_resetReq (s : State) (r : Reg) (v : Nibble) : (s.setReg r v).resetReq = s.resetReq := by
  simp [State.setReg]
@[simp] theorem State.setReg_pins (s : State) (r : Reg) (v : Nibble) : (s.setReg r v).pins = s.pins := by
  simp [State.setReg]
@[simp] theorem State.setReg_pinQueue (s : State) (r : Reg) (v : Nibble) : (s.setReg r v).pinQueue = s.pinQueue := by
  simp [State.setReg]
@[simp] theorem State.setReg_cycles (s : State) (r : Reg) (v : Nibble) : (s.setReg r v).cycles = s.cycles := by
  simp [State.setReg]
@[simp] theorem State.setReg_startedAt (s : State) (r : Reg) (v : Nibble) : (s.setReg r v).startedAt = s.startedAt := by
  simp [State.setReg]
@[simp] theorem State.setReg_freeCount (s : State) (r : Reg) (v : Nibble) : (s.setReg r v).freeCount = s.freeCount := by
  simp [State.setReg]

@[simp] theorem State.setRegIn_chip (s : State) (b : BitVec 2) (r : Reg) (v : Nibble) : (s.setRegIn b r v).chip = s.chip := by
  simp [State.setRegIn]
@[simp] theorem State.setRegIn_rom (s : State) (b : BitVec 2) (r : Reg) (v : Nibble) : (s.setRegIn b r v).rom = s.rom := by
  simp [State.setRegIn]
@[simp] theorem State.setRegIn_pc (s : State) (b : BitVec 2) (r : Reg) (v : Nibble) : (s.setRegIn b r v).pc = s.pc := by
  simp [State.setRegIn]
@[simp] theorem State.setRegIn_cy (s : State) (b : BitVec 2) (r : Reg) (v : Nibble) : (s.setRegIn b r v).cy = s.cy := by
  simp [State.setRegIn]
@[simp] theorem State.setRegIn_stacked (s : State) (b : BitVec 2) (r : Reg) (v : Nibble) : (s.setRegIn b r v).stacked = s.stacked := by
  simp [State.setRegIn]
@[simp] theorem State.setRegIn_addsNoskip (s : State) (b : BitVec 2) (r : Reg) (v : Nibble) : (s.setRegIn b r v).addsNoskip = s.addsNoskip := by
  simp [State.setRegIn]
@[simp] theorem State.setRegIn_ist (s : State) (b : BitVec 2) (r : Reg) (v : Nibble) : (s.setRegIn b r v).ist = s.ist := by
  simp [State.setRegIn]
@[simp] theorem State.setRegIn_mbe (s : State) (b : BitVec 2) (r : Reg) (v : Nibble) : (s.setRegIn b r v).mbe = s.mbe := by
  simp [State.setRegIn]
@[simp] theorem State.setRegIn_rbe (s : State) (b : BitVec 2) (r : Reg) (v : Nibble) : (s.setRegIn b r v).rbe = s.rbe := by
  simp [State.setRegIn]
@[simp] theorem State.setRegIn_sp (s : State) (b : BitVec 2) (r : Reg) (v : Nibble) : (s.setRegIn b r v).sp = s.sp := by
  simp [State.setRegIn]
@[simp] theorem State.setRegIn_sbs (s : State) (b : BitVec 2) (r : Reg) (v : Nibble) : (s.setRegIn b r v).sbs = s.sbs := by
  simp [State.setRegIn]
@[simp] theorem State.setRegIn_mbs (s : State) (b : BitVec 2) (r : Reg) (v : Nibble) : (s.setRegIn b r v).mbs = s.mbs := by
  simp [State.setRegIn]
@[simp] theorem State.setRegIn_rbs (s : State) (b : BitVec 2) (r : Reg) (v : Nibble) : (s.setRegIn b r v).rbs = s.rbs := by
  simp [State.setRegIn]
@[simp] theorem State.setRegIn_ints (s : State) (b : BitVec 2) (r : Reg) (v : Nibble) : (s.setRegIn b r v).ints = s.ints := by
  simp [State.setRegIn]
@[simp] theorem State.setRegIn_edges (s : State) (b : BitVec 2) (r : Reg) (v : Nibble) : (s.setRegIn b r v).edges = s.edges := by
  simp [State.setRegIn]
@[simp] theorem State.setRegIn_clk (s : State) (b : BitVec 2) (r : Reg) (v : Nibble) : (s.setRegIn b r v).clk = s.clk := by
  simp [State.setRegIn]
@[simp] theorem State.setRegIn_bt (s : State) (b : BitVec 2) (r : Reg) (v : Nibble) : (s.setRegIn b r v).bt = s.bt := by
  simp [State.setRegIn]
@[simp] theorem State.setRegIn_watch (s : State) (b : BitVec 2) (r : Reg) (v : Nibble) : (s.setRegIn b r v).watch = s.watch := by
  simp [State.setRegIn]
@[simp] theorem State.setRegIn_timer0 (s : State) (b : BitVec 2) (r : Reg) (v : Nibble) : (s.setRegIn b r v).timer0 = s.timer0 := by
  simp [State.setRegIn]
@[simp] theorem State.setRegIn_timer1 (s : State) (b : BitVec 2) (r : Reg) (v : Nibble) : (s.setRegIn b r v).timer1 = s.timer1 := by
  simp [State.setRegIn]
@[simp] theorem State.setRegIn_serial (s : State) (b : BitVec 2) (r : Reg) (v : Nibble) : (s.setRegIn b r v).serial = s.serial := by
  simp [State.setRegIn]
@[simp] theorem State.setRegIn_adc (s : State) (b : BitVec 2) (r : Reg) (v : Nibble) : (s.setRegIn b r v).adc = s.adc := by
  simp [State.setRegIn]
@[simp] theorem State.setRegIn_bsb0 (s : State) (b : BitVec 2) (r : Reg) (v : Nibble) : (s.setRegIn b r v).bsb0 = s.bsb0 := by
  simp [State.setRegIn]
@[simp] theorem State.setRegIn_bsb1 (s : State) (b : BitVec 2) (r : Reg) (v : Nibble) : (s.setRegIn b r v).bsb1 = s.bsb1 := by
  simp [State.setRegIn]
@[simp] theorem State.setRegIn_bsb2 (s : State) (b : BitVec 2) (r : Reg) (v : Nibble) : (s.setRegIn b r v).bsb2 = s.bsb2 := by
  simp [State.setRegIn]
@[simp] theorem State.setRegIn_bsb3 (s : State) (b : BitVec 2) (r : Reg) (v : Nibble) : (s.setRegIn b r v).bsb3 = s.bsb3 := by
  simp [State.setRegIn]
@[simp] theorem State.setRegIn_ports (s : State) (b : BitVec 2) (r : Reg) (v : Nibble) : (s.setRegIn b r v).ports = s.ports := by
  simp [State.setRegIn]
@[simp] theorem State.setRegIn_standby (s : State) (b : BitVec 2) (r : Reg) (v : Nibble) : (s.setRegIn b r v).standby = s.standby := by
  simp [State.setRegIn]
@[simp] theorem State.setRegIn_resetReq (s : State) (b : BitVec 2) (r : Reg) (v : Nibble) : (s.setRegIn b r v).resetReq = s.resetReq := by
  simp [State.setRegIn]
@[simp] theorem State.setRegIn_pins (s : State) (b : BitVec 2) (r : Reg) (v : Nibble) : (s.setRegIn b r v).pins = s.pins := by
  simp [State.setRegIn]
@[simp] theorem State.setRegIn_pinQueue (s : State) (b : BitVec 2) (r : Reg) (v : Nibble) : (s.setRegIn b r v).pinQueue = s.pinQueue := by
  simp [State.setRegIn]
@[simp] theorem State.setRegIn_cycles (s : State) (b : BitVec 2) (r : Reg) (v : Nibble) : (s.setRegIn b r v).cycles = s.cycles := by
  simp [State.setRegIn]
@[simp] theorem State.setRegIn_startedAt (s : State) (b : BitVec 2) (r : Reg) (v : Nibble) : (s.setRegIn b r v).startedAt = s.startedAt := by
  simp [State.setRegIn]
@[simp] theorem State.setRegIn_freeCount (s : State) (b : BitVec 2) (r : Reg) (v : Nibble) : (s.setRegIn b r v).freeCount = s.freeCount := by
  simp [State.setRegIn]

@[simp] theorem State.setStk_chip (s : State) (k : BitVec 8) (v : Nibble) : (s.setStk k v).chip = s.chip := by
  simp [State.setStk]
@[simp] theorem State.setStk_rom (s : State) (k : BitVec 8) (v : Nibble) : (s.setStk k v).rom = s.rom := by
  simp [State.setStk]
@[simp] theorem State.setStk_pc (s : State) (k : BitVec 8) (v : Nibble) : (s.setStk k v).pc = s.pc := by
  simp [State.setStk]
@[simp] theorem State.setStk_cy (s : State) (k : BitVec 8) (v : Nibble) : (s.setStk k v).cy = s.cy := by
  simp [State.setStk]
@[simp] theorem State.setStk_stacked (s : State) (k : BitVec 8) (v : Nibble) : (s.setStk k v).stacked = s.stacked := by
  simp [State.setStk]
@[simp] theorem State.setStk_addsNoskip (s : State) (k : BitVec 8) (v : Nibble) : (s.setStk k v).addsNoskip = s.addsNoskip := by
  simp [State.setStk]
@[simp] theorem State.setStk_ist (s : State) (k : BitVec 8) (v : Nibble) : (s.setStk k v).ist = s.ist := by
  simp [State.setStk]
@[simp] theorem State.setStk_mbe (s : State) (k : BitVec 8) (v : Nibble) : (s.setStk k v).mbe = s.mbe := by
  simp [State.setStk]
@[simp] theorem State.setStk_rbe (s : State) (k : BitVec 8) (v : Nibble) : (s.setStk k v).rbe = s.rbe := by
  simp [State.setStk]
@[simp] theorem State.setStk_sp (s : State) (k : BitVec 8) (v : Nibble) : (s.setStk k v).sp = s.sp := by
  simp [State.setStk]
@[simp] theorem State.setStk_sbs (s : State) (k : BitVec 8) (v : Nibble) : (s.setStk k v).sbs = s.sbs := by
  simp [State.setStk]
@[simp] theorem State.setStk_mbs (s : State) (k : BitVec 8) (v : Nibble) : (s.setStk k v).mbs = s.mbs := by
  simp [State.setStk]
@[simp] theorem State.setStk_rbs (s : State) (k : BitVec 8) (v : Nibble) : (s.setStk k v).rbs = s.rbs := by
  simp [State.setStk]
@[simp] theorem State.setStk_ints (s : State) (k : BitVec 8) (v : Nibble) : (s.setStk k v).ints = s.ints := by
  simp [State.setStk]
@[simp] theorem State.setStk_edges (s : State) (k : BitVec 8) (v : Nibble) : (s.setStk k v).edges = s.edges := by
  simp [State.setStk]
@[simp] theorem State.setStk_clk (s : State) (k : BitVec 8) (v : Nibble) : (s.setStk k v).clk = s.clk := by
  simp [State.setStk]
@[simp] theorem State.setStk_bt (s : State) (k : BitVec 8) (v : Nibble) : (s.setStk k v).bt = s.bt := by
  simp [State.setStk]
@[simp] theorem State.setStk_watch (s : State) (k : BitVec 8) (v : Nibble) : (s.setStk k v).watch = s.watch := by
  simp [State.setStk]
@[simp] theorem State.setStk_timer0 (s : State) (k : BitVec 8) (v : Nibble) : (s.setStk k v).timer0 = s.timer0 := by
  simp [State.setStk]
@[simp] theorem State.setStk_timer1 (s : State) (k : BitVec 8) (v : Nibble) : (s.setStk k v).timer1 = s.timer1 := by
  simp [State.setStk]
@[simp] theorem State.setStk_serial (s : State) (k : BitVec 8) (v : Nibble) : (s.setStk k v).serial = s.serial := by
  simp [State.setStk]
@[simp] theorem State.setStk_adc (s : State) (k : BitVec 8) (v : Nibble) : (s.setStk k v).adc = s.adc := by
  simp [State.setStk]
@[simp] theorem State.setStk_bsb0 (s : State) (k : BitVec 8) (v : Nibble) : (s.setStk k v).bsb0 = s.bsb0 := by
  simp [State.setStk]
@[simp] theorem State.setStk_bsb1 (s : State) (k : BitVec 8) (v : Nibble) : (s.setStk k v).bsb1 = s.bsb1 := by
  simp [State.setStk]
@[simp] theorem State.setStk_bsb2 (s : State) (k : BitVec 8) (v : Nibble) : (s.setStk k v).bsb2 = s.bsb2 := by
  simp [State.setStk]
@[simp] theorem State.setStk_bsb3 (s : State) (k : BitVec 8) (v : Nibble) : (s.setStk k v).bsb3 = s.bsb3 := by
  simp [State.setStk]
@[simp] theorem State.setStk_ports (s : State) (k : BitVec 8) (v : Nibble) : (s.setStk k v).ports = s.ports := by
  simp [State.setStk]
@[simp] theorem State.setStk_standby (s : State) (k : BitVec 8) (v : Nibble) : (s.setStk k v).standby = s.standby := by
  simp [State.setStk]
@[simp] theorem State.setStk_resetReq (s : State) (k : BitVec 8) (v : Nibble) : (s.setStk k v).resetReq = s.resetReq := by
  simp [State.setStk]
@[simp] theorem State.setStk_pins (s : State) (k : BitVec 8) (v : Nibble) : (s.setStk k v).pins = s.pins := by
  simp [State.setStk]
@[simp] theorem State.setStk_pinQueue (s : State) (k : BitVec 8) (v : Nibble) : (s.setStk k v).pinQueue = s.pinQueue := by
  simp [State.setStk]
@[simp] theorem State.setStk_cycles (s : State) (k : BitVec 8) (v : Nibble) : (s.setStk k v).cycles = s.cycles := by
  simp [State.setStk]
@[simp] theorem State.setStk_startedAt (s : State) (k : BitVec 8) (v : Nibble) : (s.setStk k v).startedAt = s.startedAt := by
  simp [State.setStk]
@[simp] theorem State.setStk_freeCount (s : State) (k : BitVec 8) (v : Nibble) : (s.setStk k v).freeCount = s.freeCount := by
  simp [State.setStk]

@[simp] theorem State.setPairIn_chip (s : State) (b : BitVec 2) (p : Rp) (v : Byte) : (s.setPairIn b p v).chip = s.chip := by
  simp [State.setPairIn]
@[simp] theorem State.setPairIn_rom (s : State) (b : BitVec 2) (p : Rp) (v : Byte) : (s.setPairIn b p v).rom = s.rom := by
  simp [State.setPairIn]
@[simp] theorem State.setPairIn_pc (s : State) (b : BitVec 2) (p : Rp) (v : Byte) : (s.setPairIn b p v).pc = s.pc := by
  simp [State.setPairIn]
@[simp] theorem State.setPairIn_cy (s : State) (b : BitVec 2) (p : Rp) (v : Byte) : (s.setPairIn b p v).cy = s.cy := by
  simp [State.setPairIn]
@[simp] theorem State.setPairIn_stacked (s : State) (b : BitVec 2) (p : Rp) (v : Byte) : (s.setPairIn b p v).stacked = s.stacked := by
  simp [State.setPairIn]
@[simp] theorem State.setPairIn_addsNoskip (s : State) (b : BitVec 2) (p : Rp) (v : Byte) : (s.setPairIn b p v).addsNoskip = s.addsNoskip := by
  simp [State.setPairIn]
@[simp] theorem State.setPairIn_ist (s : State) (b : BitVec 2) (p : Rp) (v : Byte) : (s.setPairIn b p v).ist = s.ist := by
  simp [State.setPairIn]
@[simp] theorem State.setPairIn_mbe (s : State) (b : BitVec 2) (p : Rp) (v : Byte) : (s.setPairIn b p v).mbe = s.mbe := by
  simp [State.setPairIn]
@[simp] theorem State.setPairIn_rbe (s : State) (b : BitVec 2) (p : Rp) (v : Byte) : (s.setPairIn b p v).rbe = s.rbe := by
  simp [State.setPairIn]
@[simp] theorem State.setPairIn_sp (s : State) (b : BitVec 2) (p : Rp) (v : Byte) : (s.setPairIn b p v).sp = s.sp := by
  simp [State.setPairIn]
@[simp] theorem State.setPairIn_sbs (s : State) (b : BitVec 2) (p : Rp) (v : Byte) : (s.setPairIn b p v).sbs = s.sbs := by
  simp [State.setPairIn]
@[simp] theorem State.setPairIn_mbs (s : State) (b : BitVec 2) (p : Rp) (v : Byte) : (s.setPairIn b p v).mbs = s.mbs := by
  simp [State.setPairIn]
@[simp] theorem State.setPairIn_rbs (s : State) (b : BitVec 2) (p : Rp) (v : Byte) : (s.setPairIn b p v).rbs = s.rbs := by
  simp [State.setPairIn]
@[simp] theorem State.setPairIn_ints (s : State) (b : BitVec 2) (p : Rp) (v : Byte) : (s.setPairIn b p v).ints = s.ints := by
  simp [State.setPairIn]
@[simp] theorem State.setPairIn_edges (s : State) (b : BitVec 2) (p : Rp) (v : Byte) : (s.setPairIn b p v).edges = s.edges := by
  simp [State.setPairIn]
@[simp] theorem State.setPairIn_clk (s : State) (b : BitVec 2) (p : Rp) (v : Byte) : (s.setPairIn b p v).clk = s.clk := by
  simp [State.setPairIn]
@[simp] theorem State.setPairIn_bt (s : State) (b : BitVec 2) (p : Rp) (v : Byte) : (s.setPairIn b p v).bt = s.bt := by
  simp [State.setPairIn]
@[simp] theorem State.setPairIn_watch (s : State) (b : BitVec 2) (p : Rp) (v : Byte) : (s.setPairIn b p v).watch = s.watch := by
  simp [State.setPairIn]
@[simp] theorem State.setPairIn_timer0 (s : State) (b : BitVec 2) (p : Rp) (v : Byte) : (s.setPairIn b p v).timer0 = s.timer0 := by
  simp [State.setPairIn]
@[simp] theorem State.setPairIn_timer1 (s : State) (b : BitVec 2) (p : Rp) (v : Byte) : (s.setPairIn b p v).timer1 = s.timer1 := by
  simp [State.setPairIn]
@[simp] theorem State.setPairIn_serial (s : State) (b : BitVec 2) (p : Rp) (v : Byte) : (s.setPairIn b p v).serial = s.serial := by
  simp [State.setPairIn]
@[simp] theorem State.setPairIn_adc (s : State) (b : BitVec 2) (p : Rp) (v : Byte) : (s.setPairIn b p v).adc = s.adc := by
  simp [State.setPairIn]
@[simp] theorem State.setPairIn_bsb0 (s : State) (b : BitVec 2) (p : Rp) (v : Byte) : (s.setPairIn b p v).bsb0 = s.bsb0 := by
  simp [State.setPairIn]
@[simp] theorem State.setPairIn_bsb1 (s : State) (b : BitVec 2) (p : Rp) (v : Byte) : (s.setPairIn b p v).bsb1 = s.bsb1 := by
  simp [State.setPairIn]
@[simp] theorem State.setPairIn_bsb2 (s : State) (b : BitVec 2) (p : Rp) (v : Byte) : (s.setPairIn b p v).bsb2 = s.bsb2 := by
  simp [State.setPairIn]
@[simp] theorem State.setPairIn_bsb3 (s : State) (b : BitVec 2) (p : Rp) (v : Byte) : (s.setPairIn b p v).bsb3 = s.bsb3 := by
  simp [State.setPairIn]
@[simp] theorem State.setPairIn_ports (s : State) (b : BitVec 2) (p : Rp) (v : Byte) : (s.setPairIn b p v).ports = s.ports := by
  simp [State.setPairIn]
@[simp] theorem State.setPairIn_standby (s : State) (b : BitVec 2) (p : Rp) (v : Byte) : (s.setPairIn b p v).standby = s.standby := by
  simp [State.setPairIn]
@[simp] theorem State.setPairIn_resetReq (s : State) (b : BitVec 2) (p : Rp) (v : Byte) : (s.setPairIn b p v).resetReq = s.resetReq := by
  simp [State.setPairIn]
@[simp] theorem State.setPairIn_pins (s : State) (b : BitVec 2) (p : Rp) (v : Byte) : (s.setPairIn b p v).pins = s.pins := by
  simp [State.setPairIn]
@[simp] theorem State.setPairIn_pinQueue (s : State) (b : BitVec 2) (p : Rp) (v : Byte) : (s.setPairIn b p v).pinQueue = s.pinQueue := by
  simp [State.setPairIn]
@[simp] theorem State.setPairIn_cycles (s : State) (b : BitVec 2) (p : Rp) (v : Byte) : (s.setPairIn b p v).cycles = s.cycles := by
  simp [State.setPairIn]
@[simp] theorem State.setPairIn_startedAt (s : State) (b : BitVec 2) (p : Rp) (v : Byte) : (s.setPairIn b p v).startedAt = s.startedAt := by
  simp [State.setPairIn]
@[simp] theorem State.setPairIn_freeCount (s : State) (b : BitVec 2) (p : Rp) (v : Byte) : (s.setPairIn b p v).freeCount = s.freeCount := by
  simp [State.setPairIn]

@[simp] theorem State.setPair_chip (s : State) (p : Rp) (v : Byte) : (s.setPair p v).chip = s.chip := by
  simp [State.setPair]
@[simp] theorem State.setPair_rom (s : State) (p : Rp) (v : Byte) : (s.setPair p v).rom = s.rom := by
  simp [State.setPair]
@[simp] theorem State.setPair_pc (s : State) (p : Rp) (v : Byte) : (s.setPair p v).pc = s.pc := by
  simp [State.setPair]
@[simp] theorem State.setPair_cy (s : State) (p : Rp) (v : Byte) : (s.setPair p v).cy = s.cy := by
  simp [State.setPair]
@[simp] theorem State.setPair_stacked (s : State) (p : Rp) (v : Byte) : (s.setPair p v).stacked = s.stacked := by
  simp [State.setPair]
@[simp] theorem State.setPair_addsNoskip (s : State) (p : Rp) (v : Byte) : (s.setPair p v).addsNoskip = s.addsNoskip := by
  simp [State.setPair]
@[simp] theorem State.setPair_ist (s : State) (p : Rp) (v : Byte) : (s.setPair p v).ist = s.ist := by
  simp [State.setPair]
@[simp] theorem State.setPair_mbe (s : State) (p : Rp) (v : Byte) : (s.setPair p v).mbe = s.mbe := by
  simp [State.setPair]
@[simp] theorem State.setPair_rbe (s : State) (p : Rp) (v : Byte) : (s.setPair p v).rbe = s.rbe := by
  simp [State.setPair]
@[simp] theorem State.setPair_sp (s : State) (p : Rp) (v : Byte) : (s.setPair p v).sp = s.sp := by
  simp [State.setPair]
@[simp] theorem State.setPair_sbs (s : State) (p : Rp) (v : Byte) : (s.setPair p v).sbs = s.sbs := by
  simp [State.setPair]
@[simp] theorem State.setPair_mbs (s : State) (p : Rp) (v : Byte) : (s.setPair p v).mbs = s.mbs := by
  simp [State.setPair]
@[simp] theorem State.setPair_rbs (s : State) (p : Rp) (v : Byte) : (s.setPair p v).rbs = s.rbs := by
  simp [State.setPair]
@[simp] theorem State.setPair_ints (s : State) (p : Rp) (v : Byte) : (s.setPair p v).ints = s.ints := by
  simp [State.setPair]
@[simp] theorem State.setPair_edges (s : State) (p : Rp) (v : Byte) : (s.setPair p v).edges = s.edges := by
  simp [State.setPair]
@[simp] theorem State.setPair_clk (s : State) (p : Rp) (v : Byte) : (s.setPair p v).clk = s.clk := by
  simp [State.setPair]
@[simp] theorem State.setPair_bt (s : State) (p : Rp) (v : Byte) : (s.setPair p v).bt = s.bt := by
  simp [State.setPair]
@[simp] theorem State.setPair_watch (s : State) (p : Rp) (v : Byte) : (s.setPair p v).watch = s.watch := by
  simp [State.setPair]
@[simp] theorem State.setPair_timer0 (s : State) (p : Rp) (v : Byte) : (s.setPair p v).timer0 = s.timer0 := by
  simp [State.setPair]
@[simp] theorem State.setPair_timer1 (s : State) (p : Rp) (v : Byte) : (s.setPair p v).timer1 = s.timer1 := by
  simp [State.setPair]
@[simp] theorem State.setPair_serial (s : State) (p : Rp) (v : Byte) : (s.setPair p v).serial = s.serial := by
  simp [State.setPair]
@[simp] theorem State.setPair_adc (s : State) (p : Rp) (v : Byte) : (s.setPair p v).adc = s.adc := by
  simp [State.setPair]
@[simp] theorem State.setPair_bsb0 (s : State) (p : Rp) (v : Byte) : (s.setPair p v).bsb0 = s.bsb0 := by
  simp [State.setPair]
@[simp] theorem State.setPair_bsb1 (s : State) (p : Rp) (v : Byte) : (s.setPair p v).bsb1 = s.bsb1 := by
  simp [State.setPair]
@[simp] theorem State.setPair_bsb2 (s : State) (p : Rp) (v : Byte) : (s.setPair p v).bsb2 = s.bsb2 := by
  simp [State.setPair]
@[simp] theorem State.setPair_bsb3 (s : State) (p : Rp) (v : Byte) : (s.setPair p v).bsb3 = s.bsb3 := by
  simp [State.setPair]
@[simp] theorem State.setPair_ports (s : State) (p : Rp) (v : Byte) : (s.setPair p v).ports = s.ports := by
  simp [State.setPair]
@[simp] theorem State.setPair_standby (s : State) (p : Rp) (v : Byte) : (s.setPair p v).standby = s.standby := by
  simp [State.setPair]
@[simp] theorem State.setPair_resetReq (s : State) (p : Rp) (v : Byte) : (s.setPair p v).resetReq = s.resetReq := by
  simp [State.setPair]
@[simp] theorem State.setPair_pins (s : State) (p : Rp) (v : Byte) : (s.setPair p v).pins = s.pins := by
  simp [State.setPair]
@[simp] theorem State.setPair_pinQueue (s : State) (p : Rp) (v : Byte) : (s.setPair p v).pinQueue = s.pinQueue := by
  simp [State.setPair]
@[simp] theorem State.setPair_cycles (s : State) (p : Rp) (v : Byte) : (s.setPair p v).cycles = s.cycles := by
  simp [State.setPair]
@[simp] theorem State.setPair_startedAt (s : State) (p : Rp) (v : Byte) : (s.setPair p v).startedAt = s.startedAt := by
  simp [State.setPair]
@[simp] theorem State.setPair_freeCount (s : State) (p : Rp) (v : Byte) : (s.setPair p v).freeCount = s.freeCount := by
  simp [State.setPair]

@[simp] theorem State.setRpP_chip (s : State) (p : RpP) (v : Byte) : (s.setRpP p v).chip = s.chip := by
  simp [State.setRpP]
@[simp] theorem State.setRpP_rom (s : State) (p : RpP) (v : Byte) : (s.setRpP p v).rom = s.rom := by
  simp [State.setRpP]
@[simp] theorem State.setRpP_pc (s : State) (p : RpP) (v : Byte) : (s.setRpP p v).pc = s.pc := by
  simp [State.setRpP]
@[simp] theorem State.setRpP_cy (s : State) (p : RpP) (v : Byte) : (s.setRpP p v).cy = s.cy := by
  simp [State.setRpP]
@[simp] theorem State.setRpP_stacked (s : State) (p : RpP) (v : Byte) : (s.setRpP p v).stacked = s.stacked := by
  simp [State.setRpP]
@[simp] theorem State.setRpP_addsNoskip (s : State) (p : RpP) (v : Byte) : (s.setRpP p v).addsNoskip = s.addsNoskip := by
  simp [State.setRpP]
@[simp] theorem State.setRpP_ist (s : State) (p : RpP) (v : Byte) : (s.setRpP p v).ist = s.ist := by
  simp [State.setRpP]
@[simp] theorem State.setRpP_mbe (s : State) (p : RpP) (v : Byte) : (s.setRpP p v).mbe = s.mbe := by
  simp [State.setRpP]
@[simp] theorem State.setRpP_rbe (s : State) (p : RpP) (v : Byte) : (s.setRpP p v).rbe = s.rbe := by
  simp [State.setRpP]
@[simp] theorem State.setRpP_sp (s : State) (p : RpP) (v : Byte) : (s.setRpP p v).sp = s.sp := by
  simp [State.setRpP]
@[simp] theorem State.setRpP_sbs (s : State) (p : RpP) (v : Byte) : (s.setRpP p v).sbs = s.sbs := by
  simp [State.setRpP]
@[simp] theorem State.setRpP_mbs (s : State) (p : RpP) (v : Byte) : (s.setRpP p v).mbs = s.mbs := by
  simp [State.setRpP]
@[simp] theorem State.setRpP_rbs (s : State) (p : RpP) (v : Byte) : (s.setRpP p v).rbs = s.rbs := by
  simp [State.setRpP]
@[simp] theorem State.setRpP_ints (s : State) (p : RpP) (v : Byte) : (s.setRpP p v).ints = s.ints := by
  simp [State.setRpP]
@[simp] theorem State.setRpP_edges (s : State) (p : RpP) (v : Byte) : (s.setRpP p v).edges = s.edges := by
  simp [State.setRpP]
@[simp] theorem State.setRpP_clk (s : State) (p : RpP) (v : Byte) : (s.setRpP p v).clk = s.clk := by
  simp [State.setRpP]
@[simp] theorem State.setRpP_bt (s : State) (p : RpP) (v : Byte) : (s.setRpP p v).bt = s.bt := by
  simp [State.setRpP]
@[simp] theorem State.setRpP_watch (s : State) (p : RpP) (v : Byte) : (s.setRpP p v).watch = s.watch := by
  simp [State.setRpP]
@[simp] theorem State.setRpP_timer0 (s : State) (p : RpP) (v : Byte) : (s.setRpP p v).timer0 = s.timer0 := by
  simp [State.setRpP]
@[simp] theorem State.setRpP_timer1 (s : State) (p : RpP) (v : Byte) : (s.setRpP p v).timer1 = s.timer1 := by
  simp [State.setRpP]
@[simp] theorem State.setRpP_serial (s : State) (p : RpP) (v : Byte) : (s.setRpP p v).serial = s.serial := by
  simp [State.setRpP]
@[simp] theorem State.setRpP_adc (s : State) (p : RpP) (v : Byte) : (s.setRpP p v).adc = s.adc := by
  simp [State.setRpP]
@[simp] theorem State.setRpP_bsb0 (s : State) (p : RpP) (v : Byte) : (s.setRpP p v).bsb0 = s.bsb0 := by
  simp [State.setRpP]
@[simp] theorem State.setRpP_bsb1 (s : State) (p : RpP) (v : Byte) : (s.setRpP p v).bsb1 = s.bsb1 := by
  simp [State.setRpP]
@[simp] theorem State.setRpP_bsb2 (s : State) (p : RpP) (v : Byte) : (s.setRpP p v).bsb2 = s.bsb2 := by
  simp [State.setRpP]
@[simp] theorem State.setRpP_bsb3 (s : State) (p : RpP) (v : Byte) : (s.setRpP p v).bsb3 = s.bsb3 := by
  simp [State.setRpP]
@[simp] theorem State.setRpP_ports (s : State) (p : RpP) (v : Byte) : (s.setRpP p v).ports = s.ports := by
  simp [State.setRpP]
@[simp] theorem State.setRpP_standby (s : State) (p : RpP) (v : Byte) : (s.setRpP p v).standby = s.standby := by
  simp [State.setRpP]
@[simp] theorem State.setRpP_resetReq (s : State) (p : RpP) (v : Byte) : (s.setRpP p v).resetReq = s.resetReq := by
  simp [State.setRpP]
@[simp] theorem State.setRpP_pins (s : State) (p : RpP) (v : Byte) : (s.setRpP p v).pins = s.pins := by
  simp [State.setRpP]
@[simp] theorem State.setRpP_pinQueue (s : State) (p : RpP) (v : Byte) : (s.setRpP p v).pinQueue = s.pinQueue := by
  simp [State.setRpP]
@[simp] theorem State.setRpP_cycles (s : State) (p : RpP) (v : Byte) : (s.setRpP p v).cycles = s.cycles := by
  simp [State.setRpP]
@[simp] theorem State.setRpP_startedAt (s : State) (p : RpP) (v : Byte) : (s.setRpP p v).startedAt = s.startedAt := by
  simp [State.setRpP]
@[simp] theorem State.setRpP_freeCount (s : State) (p : RpP) (v : Byte) : (s.setRpP p v).freeCount = s.freeCount := by
  simp [State.setRpP]

@[simp] theorem State.bump_chip (s : State) : (s.bump).chip = s.chip := rfl
@[simp] theorem State.bump_rom (s : State) : (s.bump).rom = s.rom := rfl
@[simp] theorem State.bump_ram (s : State) : (s.bump).ram = s.ram := rfl
@[simp] theorem State.bump_pc (s : State) : (s.bump).pc = s.pc := rfl
@[simp] theorem State.bump_cy (s : State) : (s.bump).cy = s.cy := rfl
@[simp] theorem State.bump_stacked (s : State) : (s.bump).stacked = s.stacked := rfl
@[simp] theorem State.bump_addsNoskip (s : State) : (s.bump).addsNoskip = s.addsNoskip := rfl
@[simp] theorem State.bump_ist (s : State) : (s.bump).ist = s.ist := rfl
@[simp] theorem State.bump_mbe (s : State) : (s.bump).mbe = s.mbe := rfl
@[simp] theorem State.bump_rbe (s : State) : (s.bump).rbe = s.rbe := rfl
@[simp] theorem State.bump_sp (s : State) : (s.bump).sp = s.sp := rfl
@[simp] theorem State.bump_sbs (s : State) : (s.bump).sbs = s.sbs := rfl
@[simp] theorem State.bump_mbs (s : State) : (s.bump).mbs = s.mbs := rfl
@[simp] theorem State.bump_rbs (s : State) : (s.bump).rbs = s.rbs := rfl
@[simp] theorem State.bump_ints (s : State) : (s.bump).ints = s.ints := rfl
@[simp] theorem State.bump_edges (s : State) : (s.bump).edges = s.edges := rfl
@[simp] theorem State.bump_clk (s : State) : (s.bump).clk = s.clk := rfl
@[simp] theorem State.bump_bt (s : State) : (s.bump).bt = s.bt := rfl
@[simp] theorem State.bump_watch (s : State) : (s.bump).watch = s.watch := rfl
@[simp] theorem State.bump_timer0 (s : State) : (s.bump).timer0 = s.timer0 := rfl
@[simp] theorem State.bump_timer1 (s : State) : (s.bump).timer1 = s.timer1 := rfl
@[simp] theorem State.bump_serial (s : State) : (s.bump).serial = s.serial := rfl
@[simp] theorem State.bump_adc (s : State) : (s.bump).adc = s.adc := rfl
@[simp] theorem State.bump_bsb0 (s : State) : (s.bump).bsb0 = s.bsb0 := rfl
@[simp] theorem State.bump_bsb1 (s : State) : (s.bump).bsb1 = s.bsb1 := rfl
@[simp] theorem State.bump_bsb2 (s : State) : (s.bump).bsb2 = s.bsb2 := rfl
@[simp] theorem State.bump_bsb3 (s : State) : (s.bump).bsb3 = s.bsb3 := rfl
@[simp] theorem State.bump_ports (s : State) : (s.bump).ports = s.ports := rfl
@[simp] theorem State.bump_standby (s : State) : (s.bump).standby = s.standby := rfl
@[simp] theorem State.bump_resetReq (s : State) : (s.bump).resetReq = s.resetReq := rfl
@[simp] theorem State.bump_pins (s : State) : (s.bump).pins = s.pins := rfl
@[simp] theorem State.bump_pinQueue (s : State) : (s.bump).pinQueue = s.pinQueue := rfl
@[simp] theorem State.bump_cycles (s : State) : (s.bump).cycles = s.cycles := rfl
@[simp] theorem State.bump_startedAt (s : State) : (s.bump).startedAt = s.startedAt := rfl

@[simp] theorem State.snapshot_chip (s : State) : (s.snapshot).chip = s.chip := rfl
@[simp] theorem State.snapshot_rom (s : State) : (s.snapshot).rom = s.rom := rfl
@[simp] theorem State.snapshot_ram (s : State) : (s.snapshot).ram = s.ram := rfl
@[simp] theorem State.snapshot_pc (s : State) : (s.snapshot).pc = s.pc := rfl
@[simp] theorem State.snapshot_cy (s : State) : (s.snapshot).cy = s.cy := rfl
@[simp] theorem State.snapshot_stacked (s : State) : (s.snapshot).stacked = s.stacked := rfl
@[simp] theorem State.snapshot_addsNoskip (s : State) : (s.snapshot).addsNoskip = s.addsNoskip := rfl
@[simp] theorem State.snapshot_ist (s : State) : (s.snapshot).ist = s.ist := rfl
@[simp] theorem State.snapshot_mbe (s : State) : (s.snapshot).mbe = s.mbe := rfl
@[simp] theorem State.snapshot_rbe (s : State) : (s.snapshot).rbe = s.rbe := rfl
@[simp] theorem State.snapshot_sp (s : State) : (s.snapshot).sp = s.sp := rfl
@[simp] theorem State.snapshot_sbs (s : State) : (s.snapshot).sbs = s.sbs := rfl
@[simp] theorem State.snapshot_mbs (s : State) : (s.snapshot).mbs = s.mbs := rfl
@[simp] theorem State.snapshot_rbs (s : State) : (s.snapshot).rbs = s.rbs := rfl
@[simp] theorem State.snapshot_edges (s : State) : (s.snapshot).edges = s.edges := rfl
@[simp] theorem State.snapshot_clk (s : State) : (s.snapshot).clk = s.clk := rfl
@[simp] theorem State.snapshot_bt (s : State) : (s.snapshot).bt = s.bt := rfl
@[simp] theorem State.snapshot_watch (s : State) : (s.snapshot).watch = s.watch := rfl
@[simp] theorem State.snapshot_timer0 (s : State) : (s.snapshot).timer0 = s.timer0 := rfl
@[simp] theorem State.snapshot_timer1 (s : State) : (s.snapshot).timer1 = s.timer1 := rfl
@[simp] theorem State.snapshot_serial (s : State) : (s.snapshot).serial = s.serial := rfl
@[simp] theorem State.snapshot_adc (s : State) : (s.snapshot).adc = s.adc := rfl
@[simp] theorem State.snapshot_bsb0 (s : State) : (s.snapshot).bsb0 = s.bsb0 := rfl
@[simp] theorem State.snapshot_bsb1 (s : State) : (s.snapshot).bsb1 = s.bsb1 := rfl
@[simp] theorem State.snapshot_bsb2 (s : State) : (s.snapshot).bsb2 = s.bsb2 := rfl
@[simp] theorem State.snapshot_bsb3 (s : State) : (s.snapshot).bsb3 = s.bsb3 := rfl
@[simp] theorem State.snapshot_ports (s : State) : (s.snapshot).ports = s.ports := rfl
@[simp] theorem State.snapshot_standby (s : State) : (s.snapshot).standby = s.standby := rfl
@[simp] theorem State.snapshot_resetReq (s : State) : (s.snapshot).resetReq = s.resetReq := rfl
@[simp] theorem State.snapshot_pins (s : State) : (s.snapshot).pins = s.pins := rfl
@[simp] theorem State.snapshot_pinQueue (s : State) : (s.snapshot).pinQueue = s.pinQueue := rfl
@[simp] theorem State.snapshot_cycles (s : State) : (s.snapshot).cycles = s.cycles := rfl
@[simp] theorem State.snapshot_startedAt (s : State) : (s.snapshot).startedAt = s.startedAt := rfl
@[simp] theorem State.snapshot_freeCount (s : State) : (s.snapshot).freeCount = s.freeCount := rfl

end Sys2Proof.Machine
end

