-- ==== Sys2Proof/Laws/Ops.lean ====
section
/-! SUPPORT. What each shared operation of Machine/Ops.lean, Flags.lean and Shapes.lean can do, said once. -/

namespace Sys2Proof.Machine

/-! ### Answers -/

@[simp] theorem andThen_next (s : State) (f : State → Result) : andThen (.next s) f = f s := rfl
@[simp] theorem andThen_fault (e : Fault) (f : State → Result) : andThen (.fault e) f = .fault e := rfl
@[simp] theorem andThen_refused (e : Refusal) (f : State → Result) : andThen (.refused e) f = .refused e := rfl

/-- A composition goes on only through a next state of its first part. -/
theorem andThen_eq_next (r : Result) (f : State → Result) (t : State) (h : andThen r f = .next t) :
    ∃ u, r = .next u ∧ f u = .next t := by
  cases r with
  | next u => exact ⟨u, rfl, h⟩
  | fault e => cases h
  | refused e => cases h

/-! ### Data memory -/

/-- What a word reads as after a write: the written value at its address where RAM is built in, itself elsewhere. -/
theorem State.ramRead_ramWrite (s : State) (h : Memory.wf ramDefault ramSize s.ram = true) (a b : DAddr) (v : Nibble) :
    (s.ramWrite a v).ramRead b = if b = a ∧ isRam a = true then v else s.ramRead b := by
  unfold State.ramWrite
  by_cases ha : isRam a = true
  · simp only [ha, if_true, and_true, State.ramRead]
    by_cases hb : b = a
    · subst hb
      simp only [if_true]
      exact cellRead_cellWrite_same _ ramSize _ 0 _ _ h
    · simp only [hb, if_false]
      exact cellRead_cellWrite_other _ _ _ _ _ (fun e => hb (BitVec.eq_of_toNat_eq e))
  · simp [ha]

/-- A write keeps data memory in canonical form. -/
theorem State.ramWrite_wf (s : State) (h : Memory.wf ramDefault ramSize s.ram = true) (a : DAddr) (v : Nibble) :
    Memory.wf ramDefault ramSize (s.ramWrite a v).ram = true := by
  unfold State.ramWrite
  split
  · next ha => exact Memory.wf_write _ _ _ _ _ h (of_decide_eq_true ha)
  · exact h

/-- A write where no RAM is built in does nothing. -/
theorem State.ramWrite_unmapped (s : State) (a : DAddr) (v : Nibble) (h : isRam a = false) : s.ramWrite a v = s := by
  simp [State.ramWrite, h]

/-- A register update that keeps `ram` keeps every word. -/
theorem State.ramRead_congr (s t : State) (a : DAddr) (h : t.ram = s.ram) : t.ramRead a = s.ramRead a := by
  simp [State.ramRead, h]

/-- `DMemWrite(a, 4, v)` outside the peripheral area. -/
theorem State.write4_outside (s : State) (a : DAddr) (v : Nibble) (h : isIo a = false) :
    s.write4 a v = .next (s.ramWrite a v) := by
  simp [State.write4, h]

/-- `DMemWrite(a, 4, v)` in the peripheral area. -/
theorem State.write4_io (s : State) (a : DAddr) (v : Nibble) (h : isIo a = true) : s.write4 a v = s.ioWrite4 a v := by
  simp [State.write4, h]

/-- `DMemRead(a, 4)` where RAM is built in. -/
theorem State.read4_ram (s : State) (a : DAddr) (h : isRam a = true) : s.read4 a = s.ramRead a := by
  simp [State.read4, h]

/-! ### General registers -/

/-- Every general register is in RAM (R21). -/
theorem isRam_regAddr (b : BitVec 2) (r : Reg) : isRam (regAddr b r) = true := by
  revert b; cases r <;> decide

/-- Two registers share an address only if they are the same register of the same bank (R21). -/
theorem regAddr_inj (b c : BitVec 2) (r q : Reg) : regAddr b r = regAddr c q ↔ b = c ∧ r = q := by
  revert b c; cases r <;> cases q <;> decide

/-- What a register reads as after a write of a register of the same bank. -/
theorem State.getReg_setReg (s : State) (h : Memory.wf ramDefault ramSize s.ram = true) (r q : Reg) (v : Nibble) :
    (s.setReg r v).getReg q = if q = r then v else s.getReg q := by
  have hb : (s.setReg r v).regBank = s.regBank := by simp [State.regBank]
  unfold State.getReg
  rw [hb]
  unfold State.setReg
  rw [State.ramRead_ramWrite s h]
  simp [regAddr_inj, isRam_regAddr]

/-! ### The end of an instruction and the skip -/

/-- The skip, whole: on to the instruction after the next one, or a stop by name. -/
theorem State.skipNext_cases (s : State) :
    (s.romByte s.pc.toNat = none ∧ s.skipNext = .fault (.beyondRom (s.romAddr s.pc.toNat))) ∨
    (∃ b, s.romByte s.pc.toNat = some b ∧ lengthOf b = none ∧ s.skipNext = .refused (.unassignedSkip b)) ∨
    (∃ b n, s.romByte s.pc.toNat = some b ∧ lengthOf b = some n ∧
      s.skipNext = .next { s with pc := s.truncPc (s.pc.toNat + n),
                                  cycles := s.cycles + (if n = 3 then 2 else 1) }) := by
  unfold State.skipNext
  split
  · next h => exact .inl ⟨h, rfl⟩
  · next b h =>
    refine .inr ?_
    split
    · next hn => exact .inl ⟨b, h, hn, rfl⟩
    · next n hn => exact .inr ⟨b, n, h, hn, rfl⟩

/-- A skip over an instruction that is there. -/
theorem State.skipNext_next (s : State) (n : Nat) (h : s.nextHas s.pc n) :
    s.skipNext = .next (s.skipped true n) := by
  obtain ⟨b, hb, hn⟩ := h
  simp only [State.skipNext, hb, hn]
  rfl

/-- An instruction that may skip, where the next one is there if it does. -/
theorem State.finishSkip_next (s : State) (c : Nat) (k : Bool) (n : Nat) (h : k = true → s.nextHas s.pc n) :
    s.finishSkip c k = .next ((s.ended c).skipped k n) := by
  cases k with
  | false => rfl
  | true => exact State.skipNext_next (s.ended c) n (h rfl)

/-- The effect of a skip leaves all but PC and the cycle count. -/
theorem State.skipped_eq (u : State) (k : Bool) (n : Nat) :
    u.skipped k n = { u with pc := if k then u.truncPc (u.pc.toNat + n) else u.pc,
                             cycles := u.cycles + (if k then (if n = 3 then 2 else 1) else 0) } := by
  cases k <;> rfl

/-! ### Arithmetic -/

/-- Without carry in, the sum is the sum of bit vectors. -/
theorem addC_false (w : Nat) (a b : BitVec w) : addC a b false = (a + b, decide (2 ^ w ≤ a.toNat + b.toNat)) := by
  simp only [addC, Bool.toNat_false, Nat.add_zero, Prod.mk.injEq, and_true]
  exact BitVec.eq_of_toNat_eq (by simp)

/-- Without borrow in, the difference is the difference of bit vectors. -/
theorem subC_false (w : Nat) (a b : BitVec w) : subC a b false = (a - b, decide (a.toNat < b.toNat)) := by
  simp only [subC, Bool.toNat_false]
  refine Prod.ext ?_ (decide_eq_decide.mpr (by omega))
  apply BitVec.eq_of_toNat_eq
  have e : ((a.toNat : Int) - b.toNat - (0 : Nat)) = (a.toNat : Int) - b.toNat := by omega
  simp only [e]
  rw [BitVec.toNat_ofInt, BitVec.toNat_sub]
  have ha := a.isLt
  have hb := b.isLt
  generalize hN : 2 ^ w = N at *
  generalize a.toNat = x at *
  generalize b.toNat = y at *
  have h1 : ((N - y + x : Nat) : Int) = (x : Int) - y + N := by omega
  have h2 : ((x : Int) - y) % (N : Int) = ((N - y + x : Nat) : Int) % N := by rw [h1]; simp
  rw [h2]
  exact_mod_cast rfl

/-- All that the end of `ADDC A,@HL` and `SUBC A,@HL` can do (R130), by the byte that follows. -/
theorem State.finishRadix_cases (s : State) (c : Nat) (k : Bool) :
    (s.romByte s.pc.toNat = none ∧ s.finishRadix c k = .fault (.beyondRom (s.romAddr s.pc.toNat))) ∨
    ∃ b, s.romByte s.pc.toNat = some b ∧
      ((b.extractLsb' 4 4 ≠ 6#4 ∧ s.finishRadix c k = s.finish c) ∨
       (b.extractLsb' 4 4 = 6#4 ∧ k = true ∧ s.finishRadix c k = s.finishSkip c true) ∨
       (b.extractLsb' 4 4 = 6#4 ∧ k = false ∧ s.finishRadix c k = .next { s.ended c with addsNoskip := true })) := by
  unfold State.finishRadix
  cases hb : s.romByte s.pc.toNat with
  | none => exact .inl ⟨rfl, rfl⟩
  | some b =>
    refine .inr ⟨b, rfl, ?_⟩
    by_cases h : b.extractLsb' 4 4 = 6#4
    · cases k
      · exact .inr (.inr ⟨h, rfl, by simp [h]⟩)
      · exact .inr (.inl ⟨h, rfl, by simp [h, State.finishSkip]⟩)
    · exact .inl ⟨h, by simp [h]⟩

/-! ### Stack -/

/-- Stack addresses differ as their offsets do. -/
theorem State.stkAddr_inj (s : State) (j k : BitVec 8) : s.stkAddr j = s.stkAddr k ↔ j = k := by
  unfold State.stkAddr
  rw [BitVec.append_right_inj, BitVec.add_right_inj]

/-- The vector entry is loaded where it is in the ROM. -/
theorem State.loadVector_next (s : State) (v : Nat) (b0 b1 : Byte) (h0 : s.romByte v = some b0)
    (h1 : s.romByte (v + 1) = some b1) :
    s.loadVector v = .next { s with pc := s.truncPc (b0.extractLsb' 0 6 ++ b1 : BitVec 14).toNat,
                                    mbe := b0.getLsbD 7, rbe := b0.getLsbD 6 } := by
  simp only [State.loadVector, h0, h1]
  rfl

end Sys2Proof.Machine
end

