-- ==== Sys2Proof/Laws/Effects.lean ====
section
/-! SUPPORT. How a meaning written over the shared operations is shown to have an effect (`Leads`, `Does` of Safety.lean):
the registers in one equation, data memory word by word. -/

namespace Sys2Proof.Machine

/-- `x` is `u` but for data memory. -/
def SameButRam (u x : State) : Prop := x = { u with ram := x.ram }

theorem SameButRam.refl (u : State) : SameButRam u u := rfl

theorem SameButRam.ramWrite {u x : State} (h : SameButRam u x) (a : DAddr) (v : Nibble) :
    SameButRam u (x.ramWrite a v) := by
  unfold State.ramWrite
  split
  · exact congrArg (fun y : State => { y with ram := cellWrite ramDefault x.ram a.toNat v }) h
  · exact h

theorem SameButRam.setReg {u x : State} (h : SameButRam u x) (r : Reg) (v : Nibble) : SameButRam u (x.setReg r v) :=
  h.ramWrite _ _

theorem SameButRam.setRegIn {u x : State} (h : SameButRam u x) (b : BitVec 2) (r : Reg) (v : Nibble) :
    SameButRam u (x.setRegIn b r v) :=
  h.ramWrite _ _

theorem SameButRam.setPairIn {u x : State} (h : SameButRam u x) (b : BitVec 2) (p : Rp) (v : Byte) :
    SameButRam u (x.setPairIn b p v) :=
  (h.ramWrite _ _).ramWrite _ _

theorem SameButRam.setPair {u x : State} (h : SameButRam u x) (p : Rp) (v : Byte) : SameButRam u (x.setPair p v) :=
  h.setPairIn _ _ _

theorem SameButRam.setRpP {u x : State} (h : SameButRam u x) (p : RpP) (v : Byte) : SameButRam u (x.setRpP p v) :=
  h.setPairIn _ _ _

theorem SameButRam.setStk {u x : State} (h : SameButRam u x) (k : BitVec 8) (v : Nibble) :
    SameButRam u (x.setStk k v) :=
  h.ramWrite _ _

@[simp] theorem wordAfter_nil (s : State) (a : DAddr) : wordAfter [] s a = s.ramRead a := rfl

theorem wordAfter_cons (k : DAddr) (v : Nibble) (ws : List (DAddr × Nibble)) (s : State) (a : DAddr) :
    wordAfter ((k, v) :: ws) s a = if a = k then v else wordAfter ws s a := by
  by_cases h : a = k
  · subst h; simp [wordAfter, List.lookup]
  · have : (a == k) = false := by simpa using h
    simp [wordAfter, List.lookup, this, h]

/-- Data memory of `x` is that of `s` with the words `ws` written, and in canonical form. -/
structure Wrote (s x : State) (ws : List (DAddr × Nibble)) : Prop where
  wf : Memory.wf ramDefault ramSize x.ram = true
  words : ∀ a, x.ramRead a = wordAfter ws s a

theorem Wrote.refl (s : State) (h : Memory.wf ramDefault ramSize s.ram = true) : Wrote s s [] := ⟨h, fun _ => rfl⟩

/-- An update that keeps `ram`. -/
theorem Wrote.congr {s x y : State} {ws : List (DAddr × Nibble)} (h : Wrote s x ws) (e : y.ram = x.ram) :
    Wrote s y ws :=
  ⟨e ▸ h.wf, fun a => (State.ramRead_congr x y a e).trans (h.words a)⟩

theorem Wrote.ramWrite {s x : State} {ws : List (DAddr × Nibble)} (h : Wrote s x ws) (a : DAddr) (v : Nibble) :
    Wrote s (x.ramWrite a v) (ramWords a v ++ ws) := by
  refine ⟨State.ramWrite_wf x h.wf a v, fun b => ?_⟩
  rw [State.ramRead_ramWrite x h.wf, h.words]
  by_cases ha : isRam a = true <;> simp [ramWords, ha, wordAfter_cons]

theorem Wrote.reg {s x : State} {ws : List (DAddr × Nibble)} (h : Wrote s x ws) (b : BitVec 2) (r : Reg) (v : Nibble) :
    Wrote s (x.ramWrite (regAddr b r) v) ((regAddr b r, v) :: ws) := by
  simpa [ramWords, isRam_regAddr] using h.ramWrite (regAddr b r) v

theorem Wrote.pair {s x : State} {ws : List (DAddr × Nibble)} (h : Wrote s x ws) (b : BitVec 2) (p : Rp) (v : Byte) :
    Wrote s (x.setPairIn b p v) (pairWords b p v ++ ws) := by
  have k := (h.reg b (rpRegs p).1 (v.extractLsb' 4 4)).reg b (rpRegs p).2 (v.extractLsb' 0 4)
  refine ⟨k.wf, fun a => (k.words a).trans ?_⟩
  have hne : regAddr b (rpRegs p).1 ≠ regAddr b (rpRegs p).2 := by
    intro e
    have k := ((regAddr_inj _ _ _ _).mp e).2
    revert k
    cases p <;> decide
  simp only [pairWords, List.cons_append, List.nil_append, wordAfter_cons]
  split
  · next e => rw [if_neg (fun e2 => hne (e2.symm.trans e))]
  · rfl

theorem State.regBank_congr (s x : State) (h1 : x.rbe = s.rbe) (h2 : x.rbs = s.rbs) : x.regBank = s.regBank := by
  simp only [State.regBank, h1, h2]

theorem Wrote.setReg {s x : State} {ws : List (DAddr × Nibble)} (h : Wrote s x ws) (hb : x.regBank = s.regBank)
    (r : Reg) (v : Nibble) : Wrote s (x.setReg r v) (s.regWord r v :: ws) := by
  have k := h.reg x.regBank r v
  rw [hb] at k
  unfold State.setReg
  rw [hb]
  exact k

theorem Wrote.setPair {s x : State} {ws : List (DAddr × Nibble)} (h : Wrote s x ws) (hb : x.regBank = s.regBank)
    (p : Rp) (v : Byte) : Wrote s (x.setPair p v) (pairWords s.regBank p v ++ ws) := by
  unfold State.setPair
  rw [hb]
  exact h.pair _ _ _

theorem Wrote.setRpP {s x : State} {ws : List (DAddr × Nibble)} (h : Wrote s x ws) (hb : x.regBank = s.regBank)
    (p : RpP) (v : Byte) : Wrote s (x.setRpP p v) (s.rpWords p v ++ ws) := by
  have k : x.pairBank p = s.pairBank p := by simp only [State.pairBank, hb]
  unfold State.setRpP State.rpWords
  rw [k]
  exact h.pair _ _ _

/-- Only the last write of a list to an address counts. -/
theorem wordAfter_append_congr (us vs ws : List (DAddr × Nibble)) (s : State)
    (h : ∀ a, wordAfter vs s a = wordAfter ws s a) (a : DAddr) :
    wordAfter (us ++ vs) s a = wordAfter (us ++ ws) s a := by
  induction us with
  | nil => exact h a
  | cons p t ih => obtain ⟨k, v⟩ := p; simp only [List.cons_append, wordAfter_cons, ih]

/-- An instruction without a data memory operand: its registers `u`, then data memory, then `c` machine cycles. -/
theorem leads_ended (s u x : State) (c : Nat) (ws : List (DAddr × Nibble)) (hx : SameButRam u x)
    (hc : u.cycles = s.cycles) (hh : u.ints.holdoff = s.ints.holdoff)
    (hm : Wrote s x ws) :
    Leads s u (.next (x.ended c)) { cycles := c, words := ws, cy := u.cy, pc := u.pc, operand := none } := by
  refine ⟨x.ended c, rfl, ?_, hm.words⟩
  have e := congrArg (fun y : State => y.ended c) hx
  have hi : ({ u.ints with holdoff := s.ints.holdoff || false } : Interrupts) = u.ints := by
    rw [← hh, Bool.or_false]
  simp only [Option.map_none, Option.getD_none, hi]
  refine e.trans ?_
  simp only [State.ended, hc]

/-- An instruction with a data memory operand at `a`. -/
theorem leads_ended_operand (s u x : State) (a : DAddr) (c : Nat) (ws : List (DAddr × Nibble))
    (hx : SameButRam (u.touch a) x) (hc : u.cycles = s.cycles) (hh : u.ints.holdoff = s.ints.holdoff)
    (hm : Wrote s x ws) :
    Leads s u (.next (x.ended c)) { cycles := c, words := ws, cy := u.cy, pc := u.pc, operand := some a } := by
  refine ⟨x.ended c, rfl, ?_, hm.words⟩
  have e := congrArg (fun y : State => y.ended c) hx
  refine e.trans ?_
  simp only [State.ended, hc, State.touch, ← hh]
  rfl

/-- A skip after an effect. -/
theorem Leads.skipped (s u x : State) (e : Effect) (k : Bool) (n : Nat) (h : Leads s u (.next x) e)
    (hu : u.chip = s.chip) : Leads s u (.next (x.skipped k n)) (e.skipIf s k n) := by
  obtain ⟨t, ht, h1, h2⟩ := h
  obtain rfl : x = t := by injection ht
  cases k with
  | false => exact ⟨x, rfl, h1, h2⟩
  | true =>
    refine ⟨_, rfl, ?_, h2⟩
    have hp : x.pc = e.pc := by rw [h1]
    have hch : x.chip = s.chip := by rw [h1]; exact hu
    have hcy : x.cycles = s.cycles + e.cycles := by rw [h1]
    have ht' : x.truncPc (x.pc.toNat + n) = s.truncPc (e.pc.toNat + n) := by rw [State.truncPc, State.truncPc, hp, hch]
    simp only [State.skipped, Effect.skipIf, if_true, ht', hcy, Nat.add_assoc]
    exact congrArg (fun y : State => { y with
      pc := s.truncPc (e.pc.toNat + n), cycles := s.cycles + (e.cycles + (if n = 3 then 2 else 1)) }) h1

end Sys2Proof.Machine
end

