-- ==== Sys2Proof/Laws/PerInstr.lean ====
section
/-! SUPPORT. Statements about every instruction as syntax, one lemma for each constructor. -/

namespace Sys2Proof.Laws.EncodedLength

/-- R122: the first byte of a well-formed instruction's words asks for as many bytes as there are words (an unassigned
code has no length). -/
def Statement (i : Instr) : Prop :=
  i.wf = true → i.isPseudo = false → (∀ b1 b2, i ≠ .unassigned b1 b2) →
    lengthOf ((encode i).headD 0) = some (encode i).length

theorem of_words {i : Instr} {b : Byte} {l : List Byte} (c : Nat) (h : encode i = b :: l) (hc : l.length + 1 = c)
    (k : i.wf = true → lengthOf b = some c) : Statement i := by
  intro w _ _
  rw [h, List.length_cons, hc]
  exact k w

theorem movAImm (n : BitVec 4) : Statement (.movAImm n) := by
  have e : ∀ n : BitVec 4, lengthOf (byteOf 7 n) = some 1 := by decide
  exact of_words 1 rfl rfl (fun _ => e n)
theorem movReg1Imm (r : Reg) (n : BitVec 4) : Statement (.movReg1Imm r n) := of_words 2 rfl rfl (fun _ => by decide)
theorem movXaImm (n : BitVec 8) : Statement (.movXaImm n) := of_words 2 rfl rfl (fun _ => by decide)
theorem movHlImm (n : BitVec 8) : Statement (.movHlImm n) := of_words 2 rfl rfl (fun _ => by decide)
theorem movRp2Imm (p : Rp) (n : BitVec 8) : Statement (.movRp2Imm p n) := by
  cases p <;> exact of_words 2 rfl rfl (fun _ => by decide)
theorem movAHl : Statement .movAHl := of_words 1 rfl rfl (fun _ => by decide)
theorem movAHlInc : Statement .movAHlInc := of_words 1 rfl rfl (fun _ => by decide)
theorem movAHlDec : Statement .movAHlDec := of_words 1 rfl rfl (fun _ => by decide)
theorem movARpa1 (q : Rpa1) : Statement (.movARpa1 q) := by
  cases q <;> exact of_words 1 rfl rfl (fun _ => by decide)
theorem movXaHl : Statement .movXaHl := of_words 2 rfl rfl (fun _ => by decide)
theorem movHlA : Statement .movHlA := of_words 1 rfl rfl (fun _ => by decide)
theorem movHlXa : Statement .movHlXa := of_words 2 rfl rfl (fun _ => by decide)
theorem movAMem (m : BitVec 8) : Statement (.movAMem m) := of_words 2 rfl rfl (fun _ => by decide)
theorem movXaMem (m : BitVec 8) : Statement (.movXaMem m) := of_words 2 rfl rfl (fun _ => by decide)
theorem movMemA (m : BitVec 8) : Statement (.movMemA m) := of_words 2 rfl rfl (fun _ => by decide)
theorem movMemXa (m : BitVec 8) : Statement (.movMemXa m) := of_words 2 rfl rfl (fun _ => by decide)
theorem movAReg (r : Reg) : Statement (.movAReg r) := of_words 2 rfl rfl (fun _ => by decide)
theorem movXaRp (p : RpP) : Statement (.movXaRp p) := of_words 2 rfl rfl (fun _ => by decide)
theorem movReg1A (r : Reg) : Statement (.movReg1A r) := of_words 2 rfl rfl (fun _ => by decide)
theorem movRpXa (p : RpP) : Statement (.movRpXa p) := of_words 2 rfl rfl (fun _ => by decide)
theorem xchAHl : Statement .xchAHl := of_words 1 rfl rfl (fun _ => by decide)
theorem xchAHlInc : Statement .xchAHlInc := of_words 1 rfl rfl (fun _ => by decide)
theorem xchAHlDec : Statement .xchAHlDec := of_words 1 rfl rfl (fun _ => by decide)
theorem xchARpa1 (q : Rpa1) : Statement (.xchARpa1 q) := by
  cases q <;> exact of_words 1 rfl rfl (fun _ => by decide)
theorem xchXaHl : Statement .xchXaHl := of_words 2 rfl rfl (fun _ => by decide)
theorem xchAMem (m : BitVec 8) : Statement (.xchAMem m) := of_words 2 rfl rfl (fun _ => by decide)
theorem xchXaMem (m : BitVec 8) : Statement (.xchXaMem m) := of_words 2 rfl rfl (fun _ => by decide)
theorem xchAReg1 (r : Reg) : Statement (.xchAReg1 r) := by
  cases r <;> exact of_words 1 rfl rfl (by decide)
theorem xchXaRp (p : RpP) : Statement (.xchXaRp p) := of_words 2 rfl rfl (fun _ => by decide)
theorem movtPcde : Statement .movtPcde := of_words 1 rfl rfl (fun _ => by decide)
theorem movtPcxa : Statement .movtPcxa := of_words 1 rfl rfl (fun _ => by decide)
theorem movtBcde : Statement .movtBcde := of_words 1 rfl rfl (fun _ => by decide)
theorem movtBcxa : Statement .movtBcxa := of_words 1 rfl rfl (fun _ => by decide)
theorem mov1CyFmem (hi : Bool) (f : BitVec 4) (b : BitVec 2) : Statement (.mov1CyFmem hi f b) := of_words 2 rfl rfl (fun _ => by decide)
theorem mov1CyPmem (g : BitVec 4) : Statement (.mov1CyPmem g) := of_words 2 rfl rfl (fun _ => by decide)
theorem mov1CyHmem (d : BitVec 4) (b : BitVec 2) : Statement (.mov1CyHmem d b) := of_words 2 rfl rfl (fun _ => by decide)
theorem mov1ToFmem (hi : Bool) (f : BitVec 4) (b : BitVec 2) : Statement (.mov1ToFmem hi f b) := of_words 2 rfl rfl (fun _ => by decide)
theorem mov1ToPmem (g : BitVec 4) : Statement (.mov1ToPmem g) := of_words 2 rfl rfl (fun _ => by decide)
theorem mov1ToHmem (d : BitVec 4) (b : BitVec 2) : Statement (.mov1ToHmem d b) := of_words 2 rfl rfl (fun _ => by decide)
theorem addsAImm (n : BitVec 4) : Statement (.addsAImm n) := by
  have e : ∀ n : BitVec 4, lengthOf (byteOf 6 n) = some 1 := by decide
  exact of_words 1 rfl rfl (fun _ => e n)
theorem addsXaImm (n : BitVec 8) : Statement (.addsXaImm n) := of_words 2 rfl rfl (fun _ => by decide)
theorem addsAHl : Statement .addsAHl := of_words 1 rfl rfl (fun _ => by decide)
theorem addsXaRp (p : RpP) : Statement (.addsXaRp p) := of_words 2 rfl rfl (fun _ => by decide)
theorem addsRpXa (p : RpP) : Statement (.addsRpXa p) := of_words 2 rfl rfl (fun _ => by decide)
theorem addcAHl : Statement .addcAHl := of_words 1 rfl rfl (fun _ => by decide)
theorem addcXaRp (p : RpP) : Statement (.addcXaRp p) := of_words 2 rfl rfl (fun _ => by decide)
theorem addcRpXa (p : RpP) : Statement (.addcRpXa p) := of_words 2 rfl rfl (fun _ => by decide)
theorem subsAHl : Statement .subsAHl := of_words 1 rfl rfl (fun _ => by decide)
theorem subsXaRp (p : RpP) : Statement (.subsXaRp p) := of_words 2 rfl rfl (fun _ => by decide)
theorem subsRpXa (p : RpP) : Statement (.subsRpXa p) := of_words 2 rfl rfl (fun _ => by decide)
theorem subcAHl : Statement .subcAHl := of_words 1 rfl rfl (fun _ => by decide)
theorem subcXaRp (p : RpP) : Statement (.subcXaRp p) := of_words 2 rfl rfl (fun _ => by decide)
theorem subcRpXa (p : RpP) : Statement (.subcRpXa p) := of_words 2 rfl rfl (fun _ => by decide)
theorem andAImm (n : BitVec 4) : Statement (.andAImm n) := of_words 2 rfl rfl (fun _ => by decide)
theorem andAHl : Statement .andAHl := of_words 1 rfl rfl (fun _ => by decide)
theorem andXaRp (p : RpP) : Statement (.andXaRp p) := of_words 2 rfl rfl (fun _ => by decide)
theorem andRpXa (p : RpP) : Statement (.andRpXa p) := of_words 2 rfl rfl (fun _ => by decide)
theorem orAImm (n : BitVec 4) : Statement (.orAImm n) := of_words 2 rfl rfl (fun _ => by decide)
theorem orAHl : Statement .orAHl := of_words 1 rfl rfl (fun _ => by decide)
theorem orXaRp (p : RpP) : Statement (.orXaRp p) := of_words 2 rfl rfl (fun _ => by decide)
theorem orRpXa (p : RpP) : Statement (.orRpXa p) := of_words 2 rfl rfl (fun _ => by decide)
theorem xorAImm (n : BitVec 4) : Statement (.xorAImm n) := of_words 2 rfl rfl (fun _ => by decide)
theorem xorAHl : Statement .xorAHl := of_words 1 rfl rfl (fun _ => by decide)
theorem xorXaRp (p : RpP) : Statement (.xorXaRp p) := of_words 2 rfl rfl (fun _ => by decide)
theorem xorRpXa (p : RpP) : Statement (.xorRpXa p) := of_words 2 rfl rfl (fun _ => by decide)
theorem rorcA : Statement .rorcA := of_words 1 rfl rfl (fun _ => by decide)
theorem notA : Statement .notA := of_words 2 rfl rfl (fun _ => by decide)
theorem incsReg (r : Reg) : Statement (.incsReg r) := by
  cases r <;> exact of_words 1 rfl rfl (by decide)
theorem incsRp1 (p : Rp) : Statement (.incsRp1 p) := by
  cases p <;> exact of_words 1 rfl rfl (by decide)
theorem incsHl : Statement .incsHl := of_words 2 rfl rfl (fun _ => by decide)
theorem incsMem (m : BitVec 8) : Statement (.incsMem m) := of_words 2 rfl rfl (fun _ => by decide)
theorem decsReg (r : Reg) : Statement (.decsReg r) := by
  cases r <;> exact of_words 1 rfl rfl (by decide)
theorem decsRp (p : RpP) : Statement (.decsRp p) := of_words 2 rfl rfl (fun _ => by decide)
theorem skeRegImm (r : Reg) (n : BitVec 4) : Statement (.skeRegImm r n) := of_words 2 rfl rfl (fun _ => by decide)
theorem skeHlImm (n : BitVec 4) : Statement (.skeHlImm n) := of_words 2 rfl rfl (fun _ => by decide)
theorem skeAHl : Statement .skeAHl := of_words 1 rfl rfl (fun _ => by decide)
theorem skeXaHl : Statement .skeXaHl := of_words 2 rfl rfl (fun _ => by decide)
theorem skeAReg (r : Reg) : Statement (.skeAReg r) := of_words 2 rfl rfl (fun _ => by decide)
theorem skeXaRp (p : RpP) : Statement (.skeXaRp p) := of_words 2 rfl rfl (fun _ => by decide)
theorem set1Cy : Statement .set1Cy := of_words 1 rfl rfl (fun _ => by decide)
theorem clr1Cy : Statement .clr1Cy := of_words 1 rfl rfl (fun _ => by decide)
theorem sktCy : Statement .sktCy := of_words 1 rfl rfl (fun _ => by decide)
theorem not1Cy : Statement .not1Cy := of_words 1 rfl rfl (fun _ => by decide)
theorem set1Mem (m : BitVec 8) (b : BitVec 2) : Statement (.set1Mem m b) := by
  have e : ∀ b : BitVec 2, lengthOf (memBitByte b 5) = some 2 := by decide
  exact of_words 2 rfl rfl (fun _ => e b)
theorem set1Fmem (hi : Bool) (f : BitVec 4) (b : BitVec 2) : Statement (.set1Fmem hi f b) := of_words 2 rfl rfl (fun _ => by decide)
theorem set1Pmem (g : BitVec 4) : Statement (.set1Pmem g) := of_words 2 rfl rfl (fun _ => by decide)
theorem set1Hmem (d : BitVec 4) (b : BitVec 2) : Statement (.set1Hmem d b) := of_words 2 rfl rfl (fun _ => by decide)
theorem clr1Mem (m : BitVec 8) (b : BitVec 2) : Statement (.clr1Mem m b) := by
  have e : ∀ b : BitVec 2, lengthOf (memBitByte b 4) = some 2 := by decide
  exact of_words 2 rfl rfl (fun _ => e b)
theorem clr1Fmem (hi : Bool) (f : BitVec 4) (b : BitVec 2) : Statement (.clr1Fmem hi f b) := of_words 2 rfl rfl (fun _ => by decide)
theorem clr1Pmem (g : BitVec 4) : Statement (.clr1Pmem g) := of_words 2 rfl rfl (fun _ => by decide)
theorem clr1Hmem (d : BitVec 4) (b : BitVec 2) : Statement (.clr1Hmem d b) := of_words 2 rfl rfl (fun _ => by decide)
theorem sktMem (m : BitVec 8) (b : BitVec 2) : Statement (.sktMem m b) := by
  have e : ∀ b : BitVec 2, lengthOf (memBitByte b 7) = some 2 := by decide
  exact of_words 2 rfl rfl (fun _ => e b)
theorem sktFmem (hi : Bool) (f : BitVec 4) (b : BitVec 2) : Statement (.sktFmem hi f b) := of_words 2 rfl rfl (fun _ => by decide)
theorem sktPmem (g : BitVec 4) : Statement (.sktPmem g) := of_words 2 rfl rfl (fun _ => by decide)
theorem sktHmem (d : BitVec 4) (b : BitVec 2) : Statement (.sktHmem d b) := of_words 2 rfl rfl (fun _ => by decide)
theorem skfMem (m : BitVec 8) (b : BitVec 2) : Statement (.skfMem m b) := by
  have e : ∀ b : BitVec 2, lengthOf (memBitByte b 6) = some 2 := by decide
  exact of_words 2 rfl rfl (fun _ => e b)
theorem skfFmem (hi : Bool) (f : BitVec 4) (b : BitVec 2) : Statement (.skfFmem hi f b) := of_words 2 rfl rfl (fun _ => by decide)
theorem skfPmem (g : BitVec 4) : Statement (.skfPmem g) := of_words 2 rfl rfl (fun _ => by decide)
theorem skfHmem (d : BitVec 4) (b : BitVec 2) : Statement (.skfHmem d b) := of_words 2 rfl rfl (fun _ => by decide)
theorem sktclrFmem (hi : Bool) (f : BitVec 4) (b : BitVec 2) : Statement (.sktclrFmem hi f b) := of_words 2 rfl rfl (fun _ => by decide)
theorem sktclrPmem (g : BitVec 4) : Statement (.sktclrPmem g) := of_words 2 rfl rfl (fun _ => by decide)
theorem sktclrHmem (d : BitVec 4) (b : BitVec 2) : Statement (.sktclrHmem d b) := of_words 2 rfl rfl (fun _ => by decide)
theorem and1Fmem (hi : Bool) (f : BitVec 4) (b : BitVec 2) : Statement (.and1Fmem hi f b) := of_words 2 rfl rfl (fun _ => by decide)
theorem and1Pmem (g : BitVec 4) : Statement (.and1Pmem g) := of_words 2 rfl rfl (fun _ => by decide)
theorem and1Hmem (d : BitVec 4) (b : BitVec 2) : Statement (.and1Hmem d b) := of_words 2 rfl rfl (fun _ => by decide)
theorem or1Fmem (hi : Bool) (f : BitVec 4) (b : BitVec 2) : Statement (.or1Fmem hi f b) := of_words 2 rfl rfl (fun _ => by decide)
theorem or1Pmem (g : BitVec 4) : Statement (.or1Pmem g) := of_words 2 rfl rfl (fun _ => by decide)
theorem or1Hmem (d : BitVec 4) (b : BitVec 2) : Statement (.or1Hmem d b) := of_words 2 rfl rfl (fun _ => by decide)
theorem xor1Fmem (hi : Bool) (f : BitVec 4) (b : BitVec 2) : Statement (.xor1Fmem hi f b) := of_words 2 rfl rfl (fun _ => by decide)
theorem xor1Pmem (g : BitVec 4) : Statement (.xor1Pmem g) := of_words 2 rfl rfl (fun _ => by decide)
theorem xor1Hmem (d : BitVec 4) (b : BitVec 2) : Statement (.xor1Hmem d b) := of_words 2 rfl rfl (fun _ => by decide)
theorem br (t : BitVec 14) : Statement (.br t) := of_words 3 rfl rfl (fun _ => by decide)
theorem bra (t : BitVec 15) : Statement (.bra t) := of_words 3 rfl rfl (fun _ => by decide)
theorem brFwd (k : BitVec 4) : Statement (.brFwd k) := by
  have e : ∀ k : BitVec 4, (k != 0) = true → lengthOf (byteOf 0 k) = some 1 := by decide
  exact of_words 1 rfl rfl (fun w => e k w)
theorem brBwd (k : BitVec 4) : Statement (.brBwd k) := by
  have e : ∀ k : BitVec 4, (k != 0xF) = true → lengthOf (byteOf 0xF k) = some 1 := by decide
  exact of_words 1 rfl rfl (fun w => e k w)
theorem brcb (t : BitVec 12) : Statement (.brcb t) := by
  have e : ∀ k : BitVec 4, lengthOf (byteOf 5 k) = some 2 := by decide
  exact of_words 2 rfl rfl (fun _ => e _)
theorem brPcde : Statement .brPcde := of_words 2 rfl rfl (fun _ => by decide)
theorem brPcxa : Statement .brPcxa := of_words 2 rfl rfl (fun _ => by decide)
theorem brBcde : Statement .brBcde := of_words 2 rfl rfl (fun _ => by decide)
theorem brBcxa : Statement .brBcxa := of_words 2 rfl rfl (fun _ => by decide)
theorem brAuto (t : BitVec 14) : Statement (.brAuto t) := fun _ h _ => absurd h (by simp [Instr.isPseudo])
theorem brAuto1 (t : BitVec 14) : Statement (.brAuto1 t) := fun _ h _ => absurd h (by simp [Instr.isPseudo])
theorem tbr (t : BitVec 14) : Statement (.tbr t) := fun _ h _ => absurd h (by simp [Instr.isPseudo])
theorem call (t : BitVec 14) : Statement (.call t) := of_words 3 rfl rfl (fun _ => by decide)
theorem calla (t : BitVec 15) : Statement (.calla t) := of_words 3 rfl rfl (fun _ => by decide)
theorem callf (t : BitVec 11) : Statement (.callf t) := by
  have e : ∀ k : BitVec 3, lengthOf (8#5 ++ k) = some 2 := by decide
  exact of_words 2 rfl rfl (fun _ => e _)
theorem tcall (t : BitVec 14) : Statement (.tcall t) := fun _ h _ => absurd h (by simp [Instr.isPseudo])
theorem ret : Statement .ret := of_words 1 rfl rfl (fun _ => by decide)
theorem rets : Statement .rets := of_words 1 rfl rfl (fun _ => by decide)
theorem reti : Statement .reti := of_words 1 rfl rfl (fun _ => by decide)
theorem pushRp (p : Rp) : Statement (.pushRp p) := by
  cases p <;> exact of_words 1 rfl rfl (fun _ => by decide)
theorem popRp (p : Rp) : Statement (.popRp p) := by
  cases p <;> exact of_words 1 rfl rfl (fun _ => by decide)
theorem pushBs : Statement .pushBs := of_words 2 rfl rfl (fun _ => by decide)
theorem popBs : Statement .popBs := of_words 2 rfl rfl (fun _ => by decide)
theorem ei : Statement .ei := of_words 2 rfl rfl (fun _ => by decide)
theorem di : Statement .di := of_words 2 rfl rfl (fun _ => by decide)
theorem eiIeBt : Statement .eiIeBt := of_words 2 rfl rfl (fun _ => by decide)
theorem eiIeW : Statement .eiIeW := of_words 2 rfl rfl (fun _ => by decide)
theorem eiIeT0 : Statement .eiIeT0 := of_words 2 rfl rfl (fun _ => by decide)
theorem eiIeCsi : Statement .eiIeCsi := of_words 2 rfl rfl (fun _ => by decide)
theorem eiIe0 : Statement .eiIe0 := of_words 2 rfl rfl (fun _ => by decide)
theorem eiIe2 : Statement .eiIe2 := of_words 2 rfl rfl (fun _ => by decide)
theorem eiIe4 : Statement .eiIe4 := of_words 2 rfl rfl (fun _ => by decide)
theorem eiIeT1 : Statement .eiIeT1 := of_words 2 rfl rfl (fun _ => by decide)
theorem eiIe1 : Statement .eiIe1 := of_words 2 rfl rfl (fun _ => by decide)
theorem diIeBt : Statement .diIeBt := of_words 2 rfl rfl (fun _ => by decide)
theorem diIeW : Statement .diIeW := of_words 2 rfl rfl (fun _ => by decide)
theorem diIeT0 : Statement .diIeT0 := of_words 2 rfl rfl (fun _ => by decide)
theorem diIeCsi : Statement .diIeCsi := of_words 2 rfl rfl (fun _ => by decide)
theorem diIe0 : Statement .diIe0 := of_words 2 rfl rfl (fun _ => by decide)
theorem diIe2 : Statement .diIe2 := of_words 2 rfl rfl (fun _ => by decide)
theorem diIe4 : Statement .diIe4 := of_words 2 rfl rfl (fun _ => by decide)
theorem diIeT1 : Statement .diIeT1 := of_words 2 rfl rfl (fun _ => by decide)
theorem diIe1 : Statement .diIe1 := of_words 2 rfl rfl (fun _ => by decide)
theorem inAPort (n : BitVec 4) : Statement (.inAPort n) := of_words 2 rfl rfl (fun _ => by decide)
theorem inXaPort : Statement .inXaPort := of_words 2 rfl rfl (fun _ => by decide)
theorem outPortA (n : BitVec 4) : Statement (.outPortA n) := of_words 2 rfl rfl (fun _ => by decide)
theorem outPortXa : Statement .outPortXa := of_words 2 rfl rfl (fun _ => by decide)
theorem halt : Statement .halt := of_words 2 rfl rfl (fun _ => by decide)
theorem stop : Statement .stop := of_words 2 rfl rfl (fun _ => by decide)
theorem nop : Statement .nop := of_words 1 rfl rfl (fun _ => by decide)
theorem selRb (n : BitVec 2) : Statement (.selRb n) := of_words 2 rfl rfl (fun _ => by decide)
theorem selMb (n : BitVec 4) : Statement (.selMb n) := of_words 2 rfl rfl (fun _ => by decide)
theorem getiLow (t : BitVec 4) : Statement (.getiLow t) := by
  have e : ∀ t : BitVec 4, lengthOf (byteOf 1 t) = some 1 := by decide
  exact of_words 1 rfl rfl (fun _ => e t)
theorem getiHigh (t : BitVec 5) : Statement (.getiHigh t) := by
  have e : ∀ t : BitVec 5, lengthOf (1#3 ++ t) = some 1 := by decide
  exact of_words 1 rfl rfl (fun _ => e t)
theorem unassigned (b1 : BitVec 8) (b2 : Option (BitVec 8)) : Statement (.unassigned b1 b2) := fun _ _ h => absurd rfl (h b1 b2)

end Sys2Proof.Laws.EncodedLength
end

