-- ==== Sys2Proof/Laws/Shapes.lean ====
section
/-! SUPPORT. The effect of each operation of Machine/Shapes.lean and of the plain ends of an instruction, said once in the
form of the statements (`Leads`, `Does` of Safety.lean). -/

namespace Sys2Proof.Machine

/-! ### Ends of an instruction -/

/-- `finish` after register words were written. -/
theorem does_finish {s x : State} {ws : List (DAddr × Nibble)} (c : Nat) (hx : SameButRam s x) (hm : Wrote s x ws) :
    Does s (x.finish c) { s.quiet c with words := ws } :=
  leads_ended s s x c ws hx rfl rfl hm

/-- `finish` after register words and CY were written. -/
theorem does_finish_cy {s x : State} {ws : List (DAddr × Nibble)} (k : Bool) (c : Nat) (hx : SameButRam (s.setCy k) x)
    (hm : Wrote s x ws) : Does s (x.finish c) { s.quiet c with words := ws, cy := k } :=
  leads_ended s (s.setCy k) x c ws hx rfl rfl hm

/-- `finish` of an instruction with a data memory operand at `a`. -/
theorem does_finish_operand {s x : State} {ws : List (DAddr × Nibble)} (a : DAddr) (c : Nat)
    (hx : SameButRam (s.touch a) x) (hm : Wrote s x ws) :
    Does s (x.finish c) { s.quiet c with words := ws, operand := some a } :=
  leads_ended_operand s s x a c ws hx rfl rfl hm

/-- The same with CY written. -/
theorem does_finish_operand_cy {s x : State} {ws : List (DAddr × Nibble)} (a : DAddr) (k : Bool) (c : Nat)
    (hx : SameButRam ((s.touch a).setCy k) x) (hm : Wrote s x ws) :
    Does s (x.finish c) { s.quiet c with words := ws, cy := k, operand := some a } :=
  leads_ended_operand s (s.setCy k) x a c ws hx rfl rfl hm

/-- The next instruction is the same where only data memory and the interrupt fields differ. -/
theorem State.nextHas_congr {u x : State} {n : Nat} (hr : x.rom = u.rom) (hc : x.chip = u.chip) (p : BitVec 14)
    (h : u.nextHas p n) : x.nextHas p n := by
  obtain ⟨b, hb, hn⟩ := h
  refine ⟨b, ?_, hn⟩
  rw [← hb]
  simp only [State.romByte, hr, hc]

/-- `finishSkip` after register words were written. -/
theorem does_finishSkip {s x : State} {ws : List (DAddr × Nibble)} (c : Nat) (k : Bool) (n : Nat)
    (hx : SameButRam s x) (hm : Wrote s x ws) (hn : k = true → s.nextHas s.pc n) :
    Does s (x.finishSkip c k) (Effect.skipIf { s.quiet c with words := ws } s k n) := by
  have e : x.finishSkip c k = .next ((x.ended c).skipped k n) := by
    refine State.finishSkip_next x c k n (fun hk => ?_)
    have hp : x.pc = s.pc := by rw [hx]
    rw [hp]
    exact State.nextHas_congr (by rw [hx]) (by rw [hx]) _ (hn hk)
  rw [e]
  exact (does_finish c hx hm).skipped s s _ _ k n rfl

/-- `finishSkip` of an instruction with a data memory operand at `a`. -/
theorem does_finishSkip_operand {s x : State} {ws : List (DAddr × Nibble)} (a : DAddr) (c : Nat) (k : Bool) (n : Nat)
    (hx : SameButRam (s.touch a) x) (hm : Wrote s x ws) (hn : k = true → s.nextHas s.pc n) :
    Does s (x.finishSkip c k) (Effect.skipIf { s.quiet c with words := ws, operand := some a } s k n) := by
  have e : x.finishSkip c k = .next ((x.ended c).skipped k n) := by
    refine State.finishSkip_next x c k n (fun hk => ?_)
    have hp : x.pc = s.pc := by rw [hx]; rfl
    rw [hp]
    exact State.nextHas_congr (by rw [hx]; rfl) (by rw [hx]; rfl) _ (hn hk)
  rw [e]
  exact (does_finish_operand a c hx hm).skipped s s _ _ k n rfl

/-! ### What a state read by an instruction does not depend on -/

theorem SameButRam.regBank {u x : State} (h : SameButRam u x) : x.regBank = u.regBank := by
  rw [h]
  rfl

theorem Wrote.touch {s x : State} {ws : List (DAddr × Nibble)} (h : Wrote s x ws) (a : DAddr) : Wrote s (x.touch a) ws :=
  h.congr rfl

theorem Wrote.setCy {s x : State} {ws : List (DAddr × Nibble)} (h : Wrote s x ws) (k : Bool) : Wrote s (x.setCy k) ws :=
  h.congr rfl

theorem Wrote.cast {s x : State} {ws us : List (DAddr × Nibble)} (h : Wrote s x ws) (e : ws = us) : Wrote s x us := e ▸ h

/-- The words of `XA` alone. -/
theorem Wrote.setXa {s x : State} {ws : List (DAddr × Nibble)} (h : Wrote s x ws) (hb : x.regBank = s.regBank) (v : Byte) :
    Wrote s (x.setPair .xa v) (s.xaWords v ++ ws) :=
  h.setPair hb .xa v

/-! ### Addresses -/

/-- The 8-bit forms address an even word (R86, R89). -/
theorem eaHl8_even (s : State) : s.eaHl8.getLsbD 0 = false := by
  unfold State.eaHl8
  rw [BitVec.getLsbD_append]
  simp

theorem eaMem8_even (s : State) (m : Byte) : (s.eaMem8 m).getLsbD 0 = false := by
  unfold State.eaMem8
  rw [BitVec.getLsbD_append]
  simp [evenMem]

theorem eaMem_even (s : State) (m : Byte) (h : m.getLsbD 0 = false) : (s.eaMem m).getLsbD 0 = false := by
  unfold State.eaMem
  rw [BitVec.getLsbD_append]
  simpa using h

/-- Two concatenated fields as a number. -/
theorem append_toNat {m n : Nat} (a : BitVec m) (b : BitVec n) : (a ++ b).toNat = a.toNat * 2 ^ n + b.toNat := by
  rw [BitVec.toNat_append, ← Nat.shiftLeft_add_eq_or_of_lt b.isLt, Nat.shiftLeft_eq]

/-! ### Register results -/

/-- `reg[r] <- v`. -/
theorem does_setReg (s : State) (h : Memory.wf ramDefault ramSize s.ram = true) (r : Reg) (v : Nibble) (c : Nat) :
    Does s ((s.setReg r v).finish c) { s.quiet c with words := [s.regWord r v] } :=
  does_finish c ((SameButRam.refl s).setReg r v) ((Wrote.refl s h).setReg rfl r v)

/-- `pair[p] <- v`. -/
theorem does_setPair (s : State) (h : Memory.wf ramDefault ramSize s.ram = true) (p : Rp) (v : Byte) (c : Nat) :
    Does s ((s.setPair p v).finish c) { s.quiet c with words := pairWords s.regBank p v } :=
  does_finish c ((SameButRam.refl s).setPair p v) (((Wrote.refl s h).setPair rfl p v).cast (List.append_nil _))

/-- `pair[rp'] <- v`. -/
theorem does_setRpP (s : State) (h : Memory.wf ramDefault ramSize s.ram = true) (p : RpP) (v : Byte) (c : Nat) :
    Does s ((s.setRpP p v).finish c) { s.quiet c with words := s.rpWords p v } :=
  does_finish c ((SameButRam.refl s).setRpP p v) (((Wrote.refl s h).setRpP rfl p v).cast (List.append_nil _))

/-- `reg[r] <- v`, then a skip. -/
theorem does_setReg_skip (s : State) (h : Memory.wf ramDefault ramSize s.ram = true) (r : Reg) (v : Nibble) (c : Nat)
    (k : Bool) (n : Nat) (hn : k = true → s.nextHas s.pc n) :
    Does s ((s.setReg r v).finishSkip c k) (Effect.skipIf { s.quiet c with words := [s.regWord r v] } s k n) :=
  does_finishSkip c k n ((SameButRam.refl s).setReg r v) ((Wrote.refl s h).setReg rfl r v) hn

/-- `pair[p] <- v`, then a skip. -/
theorem does_setPair_skip (s : State) (h : Memory.wf ramDefault ramSize s.ram = true) (p : Rp) (v : Byte) (c : Nat)
    (k : Bool) (n : Nat) (hn : k = true → s.nextHas s.pc n) :
    Does s ((s.setPair p v).finishSkip c k) (Effect.skipIf { s.quiet c with words := pairWords s.regBank p v } s k n) :=
  does_finishSkip c k n ((SameButRam.refl s).setPair p v) (((Wrote.refl s h).setPair rfl p v).cast (List.append_nil _)) hn

/-- `pair[rp'] <- v`, then a skip. -/
theorem does_setRpP_skip (s : State) (h : Memory.wf ramDefault ramSize s.ram = true) (p : RpP) (v : Byte) (c : Nat)
    (k : Bool) (n : Nat) (hn : k = true → s.nextHas s.pc n) :
    Does s ((s.setRpP p v).finishSkip c k) (Effect.skipIf { s.quiet c with words := s.rpWords p v } s k n) :=
  does_finishSkip c k n ((SameButRam.refl s).setRpP p v) (((Wrote.refl s h).setRpP rfl p v).cast (List.append_nil _)) hn

/-! ### Loads and stores -/

theorem loadA_does (s : State) (h : Memory.wf ramDefault ramSize s.ram = true) (a : DAddr) (c : Nat) :
    Does s (loadA a c s) { s.quiet c with words := [s.regWord .a (s.read4 a)], operand := some a } :=
  does_finish_operand a c ((SameButRam.refl _).setReg .a _) (((Wrote.refl s h).touch a).setReg rfl .a _)

theorem loadXa_does (s : State) (h : Memory.wf ramDefault ramSize s.ram = true) (a : DAddr) (c : Nat) :
    Does s (loadXa a c s) { s.quiet c with words := s.xaWords (s.read8 a), operand := some a } :=
  does_finish_operand a c ((SameButRam.refl _).setPair .xa _)
    ((((Wrote.refl s h).touch a).setXa rfl _).cast (List.append_nil _))

theorem storeA_does (s : State) (h : Memory.wf ramDefault ramSize s.ram = true) (a : DAddr) (c : Nat)
    (ha : isIo a = false) :
    Does s (storeA a c s) { s.quiet c with words := ramWords a (s.getReg .a), operand := some a } := by
  unfold storeA
  rw [State.write4_outside _ _ _ ha]
  exact does_finish_operand a c ((SameButRam.refl _).ramWrite a _)
    ((((Wrote.refl s h).touch a).ramWrite a _).cast (List.append_nil _))

/-- The two words of an 8-bit store at an even address. -/
theorem Wrote.write8 {s x : State} {ws : List (DAddr × Nibble)} (h : Wrote s x ws) (a : DAddr) (v : Byte)
    (he : a.getLsbD 0 = false) :
    Wrote s ((x.ramWrite a (v.extractLsb' 0 4)).ramWrite (a + 1) (v.extractLsb' 4 4)) (ramWords8 a v ++ ws) := by
  have k := (h.ramWrite a (v.extractLsb' 0 4)).ramWrite (a + 1) (v.extractLsb' 4 4)
  have hne : a ≠ a + 1 := by bv_omega
  have hr : isRam (a + 1) = isRam a := by
    have e : a.toNat % 2 = 0 := by
      have : a.getLsbD 0 = decide (a.toNat % 2 = 1) := by
        simp [BitVec.getLsbD, Nat.testBit_zero]
      rw [this] at he
      have := of_decide_eq_false he
      omega
    have hs : (a + 1).toNat = if a.toNat = 4095 then 0 else a.toNat + 1 := by
      rw [BitVec.toNat_add]
      have := a.isLt
      split <;> simp_all <;> omega
    refine decide_eq_decide.mpr ?_
    rw [hs]
    show _ < 512 ↔ _ < 512
    split <;> omega
  refine ⟨k.wf, fun b => (k.words b).trans ?_⟩
  simp only [ramWords, ramWords8, hr]
  split
  · simp only [List.cons_append, List.nil_append, wordAfter_cons]
    by_cases h1 : b = a
    · subst h1; simp
    · simp [h1]
  · rfl

theorem storeXa_does (s : State) (h : Memory.wf ramDefault ramSize s.ram = true) (a : DAddr) (c : Nat)
    (he : a.getLsbD 0 = false) (ha : isIo a = false) :
    Does s (storeXa a c s) { s.quiet c with words := ramWords8 a (s.getPair .xa), operand := some a } := by
  unfold storeXa
  rw [State.write8, if_neg (by simp [ha])]
  exact does_finish_operand a c (((SameButRam.refl _).ramWrite a _).ramWrite (a + 1) _)
    ((((Wrote.refl s h).touch a).write8 a _ he).cast (List.append_nil _))

/-- A store in the peripheral area is the write of that register. -/
theorem storeA_io (s u : State) (a : DAddr) (c : Nat) (ha : isIo a = true)
    (hu : (s.touch a).ioWrite4 a (s.getReg .a) = .next u) : storeA a c s = .next (u.after c) := by
  unfold storeA
  rw [State.write4_io _ _ _ ha, hu]
  rfl

theorem storeXa_io (s u : State) (a : DAddr) (c : Nat) (ha : isIo a = true)
    (hu : (s.touch a).ioWrite8 a (s.getPair .xa) = .next u) : storeXa a c s = .next (u.after c) := by
  unfold storeXa
  rw [State.write8, if_pos ha, hu]
  rfl

/-! ### Exchanges -/

theorem exchangeA_does (s : State) (h : Memory.wf ramDefault ramSize s.ram = true) (a : DAddr) (c : Nat)
    (ha : isIo a = false) :
    Does s (exchangeA a c s)
      { s.quiet c with words := s.regWord .a (s.read4 a) :: ramWords a (s.getReg .a), operand := some a } := by
  unfold exchangeA swapA
  rw [State.write4_outside _ _ _ ha]
  exact does_finish_operand a c (((SameButRam.refl _).ramWrite a _).setRegIn _ .a _)
    (((((Wrote.refl s h).touch a).ramWrite a _).cast (List.append_nil _)).reg _ .a _)

theorem exchangeXa_does (s : State) (h : Memory.wf ramDefault ramSize s.ram = true) (a : DAddr) (c : Nat)
    (he : a.getLsbD 0 = false) (ha : isIo a = false) :
    Does s (exchangeXa a c s)
      { s.quiet c with words := s.xaWords (s.read8 a) ++ ramWords8 a (s.getPair .xa), operand := some a } := by
  unfold exchangeXa
  rw [State.write8, if_neg (by simp [ha])]
  exact does_finish_operand a c ((((SameButRam.refl _).ramWrite a _).ramWrite (a + 1) _).setPairIn _ .xa _)
    (((((Wrote.refl s h).touch a).write8 a _ he).cast (List.append_nil _)).pair _ .xa _)

theorem exchangeA_io (s u : State) (a : DAddr) (c : Nat) (ha : isIo a = true)
    (hu : (s.touch a).ioWrite4 a (s.getReg .a) = .next u) :
    exchangeA a c s = .next ((u.setRegIn s.regBank .a (s.read4 a)).after c) := by
  unfold exchangeA swapA
  rw [State.write4_io _ _ _ ha, hu]
  rfl

theorem exchangeXa_io (s u : State) (a : DAddr) (c : Nat) (ha : isIo a = true)
    (hu : (s.touch a).ioWrite8 a (s.getPair .xa) = .next u) :
    exchangeXa a c s = .next ((u.setPairIn s.regBank .xa (s.read8 a)).after c) := by
  unfold exchangeXa
  rw [State.write8, if_pos ha, hu]
  rfl

/-! ### L stepping after an `@HL+` or `@HL-` access (R87) -/

theorem succ_eq_zero_iff (l : Nibble) : (l + 1 == 0) = (l == 15) := by
  revert l
  decide

theorem pred_eq_max_iff (l : Nibble) : (l - 1 == 15) = (l == 0) := by
  revert l
  decide

theorem stepUpL_does {s x : State} {ws : List (DAddr × Nibble)} (a : DAddr) (v : Nibble) (n : Nat)
    (hx : SameButRam (s.touch a) x) (hm : Wrote s x ws) (hv : wordAfter ws s (regAddr s.regBank .l) = v)
    (hn : v = 15 → s.nextHas s.pc n) :
    Does s (stepUpL s.regBank x)
      (Effect.skipIf { s.quiet 2 with words := s.regWord .l (v + 1) :: ws, operand := some a } s (v == 15) n) := by
  have e : x.ramRead (regAddr s.regBank .l) = v := (hm.words _).trans hv
  have k := does_finishSkip_operand a 2 (v + 1 == 0) n (hx.setRegIn s.regBank .l (v + 1)) (hm.reg s.regBank .l (v + 1))
    (fun h => hn (by rw [succ_eq_zero_iff] at h; simpa using h))
  rw [succ_eq_zero_iff] at k
  show Does s ((x.setRegIn s.regBank .l (x.ramRead (regAddr s.regBank .l) + 1)).finishSkip 2
    (x.ramRead (regAddr s.regBank .l) + 1 == 0)) _
  rw [e, succ_eq_zero_iff]
  exact k

theorem stepDownL_does {s x : State} {ws : List (DAddr × Nibble)} (a : DAddr) (v : Nibble) (n : Nat)
    (hx : SameButRam (s.touch a) x) (hm : Wrote s x ws) (hv : wordAfter ws s (regAddr s.regBank .l) = v)
    (hn : v = 0 → s.nextHas s.pc n) :
    Does s (stepDownL s.regBank x)
      (Effect.skipIf { s.quiet 2 with words := s.regWord .l (v - 1) :: ws, operand := some a } s (v == 0) n) := by
  have e : x.ramRead (regAddr s.regBank .l) = v := (hm.words _).trans hv
  have k := does_finishSkip_operand a 2 (v - 1 == 15) n (hx.setRegIn s.regBank .l (v - 1)) (hm.reg s.regBank .l (v - 1))
    (fun h => hn (by rw [pred_eq_max_iff] at h; simpa using h))
  rw [pred_eq_max_iff] at k
  show Does s ((x.setRegIn s.regBank .l (x.ramRead (regAddr s.regBank .l) - 1)).finishSkip 2
    (x.ramRead (regAddr s.regBank .l) - 1 == 15)) _
  rw [e, pred_eq_max_iff]
  exact k

/-! ### Arithmetic shapes -/

theorem accA_does (f : Nibble → Nibble → Nibble) (s : State) (h : Memory.wf ramDefault ramSize s.ram = true) (a : DAddr) :
    Does s (accA f a s) { s.quiet 1 with words := [s.regWord .a (f (s.getReg .a) (s.read4 a))], operand := some a } :=
  does_finish_operand a 1 ((SameButRam.refl _).setReg .a _) (((Wrote.refl s h).touch a).setReg rfl .a _)

theorem accAImm_does (f : Nibble → Nibble → Nibble) (s : State) (h : Memory.wf ramDefault ramSize s.ram = true)
    (n : Nibble) : Does s (accAImm f n s) { s.quiet 2 with words := [s.regWord .a (f (s.getReg .a) n)] } :=
  does_setReg s h .a _ 2

theorem accXa_does (f : Byte → Byte → Byte) (s : State) (h : Memory.wf ramDefault ramSize s.ram = true) (p : RpP) :
    Does s (accXa f p s) { s.quiet 2 with words := s.xaWords (f (s.getPair .xa) (s.getRpP p)) } :=
  does_setPair s h .xa _ 2

theorem accRp_does (f : Byte → Byte → Byte) (s : State) (h : Memory.wf ramDefault ramSize s.ram = true) (p : RpP) :
    Does s (accRp f p s) { s.quiet 2 with words := s.rpWords p (f (s.getRpP p) (s.getPair .xa)) } :=
  does_setRpP s h p _ 2

theorem skipXa_does (f : Byte → Byte → Bool → Byte × Bool) (s : State) (h : Memory.wf ramDefault ramSize s.ram = true)
    (p : RpP) (n : Nat) (hn : (f (s.getPair .xa) (s.getRpP p) false).2 = true → s.nextHas s.pc n) :
    Does s (skipXa f p s)
      (Effect.skipIf { s.quiet 2 with words := s.xaWords (f (s.getPair .xa) (s.getRpP p) false).1 } s
        (f (s.getPair .xa) (s.getRpP p) false).2 n) :=
  does_setPair_skip s h .xa _ 2 _ n hn

theorem skipRp_does (f : Byte → Byte → Bool → Byte × Bool) (s : State) (h : Memory.wf ramDefault ramSize s.ram = true)
    (p : RpP) (n : Nat) (hn : (f (s.getRpP p) (s.getPair .xa) false).2 = true → s.nextHas s.pc n) :
    Does s (skipRp f p s)
      (Effect.skipIf { s.quiet 2 with words := s.rpWords p (f (s.getRpP p) (s.getPair .xa) false).1 } s
        (f (s.getRpP p) (s.getPair .xa) false).2 n) :=
  does_setRpP_skip s h p _ 2 _ n hn

theorem carryXa_does (f : Byte → Byte → Bool → Byte × Bool) (s : State) (h : Memory.wf ramDefault ramSize s.ram = true)
    (p : RpP) :
    Does s (carryXa f p s)
      { s.quiet 2 with words := s.xaWords (f (s.getPair .xa) (s.getRpP p) s.cy).1,
                       cy := (f (s.getPair .xa) (s.getRpP p) s.cy).2 } := by
  refine does_finish_cy _ 2 ?_ ((((Wrote.refl s h).setXa rfl _).cast (List.append_nil _)).setCy _)
  exact congrArg (fun y : State => y.setCy _) ((SameButRam.refl s).setPair .xa _)

theorem carryRp_does (f : Byte → Byte → Bool → Byte × Bool) (s : State) (h : Memory.wf ramDefault ramSize s.ram = true)
    (p : RpP) :
    Does s (carryRp f p s)
      { s.quiet 2 with words := s.rpWords p (f (s.getRpP p) (s.getPair .xa) s.cy).1,
                       cy := (f (s.getRpP p) (s.getPair .xa) s.cy).2 } := by
  refine does_finish_cy _ 2 ?_ ((((Wrote.refl s h).setRpP rfl p _).cast (List.append_nil _)).setCy _)
  exact congrArg (fun y : State => y.setCy _) ((SameButRam.refl s).setRpP p _)

/-! ### Bits, table references, jumps -/

theorem nibSet_eq_withBit (w : Nibble) (b : BitVec 2) (v : Bool) : nibSet w b v = withBit w b v := by
  revert w b v
  decide

theorem putBit_does (s : State) (h : Memory.wf ramDefault ramSize s.ram = true) (a : DAddr) (b : BitVec 2) (v : Bool)
    (ha : isIo a = false) :
    Does s (putBit a b v s) { s.quiet 2 with words := ramWords a (withBit (s.ramRead a) b v), operand := some a } := by
  unfold putBit
  rw [State.writeBit, if_neg (by simp [ha]), nibSet_eq_withBit]
  exact does_finish_operand a 2 ((SameButRam.refl _).ramWrite a _)
    ((((Wrote.refl s h).touch a).ramWrite a _).cast (List.append_nil _))

theorem putBit_io (s u : State) (a : DAddr) (b : BitVec 2) (v : Bool) (ha : isIo a = true)
    (hu : (s.touch a).ioWriteBit a b v = .next u) : putBit a b v s = .next (u.after 2) := by
  unfold putBit
  rw [State.writeBit, if_pos ha, hu]
  rfl

theorem skipOnBit_does (s : State) (h : Memory.wf ramDefault ramSize s.ram = true) (a : DAddr) (b : BitVec 2) (v : Bool)
    (n : Nat) (hn : (s.readBit a b == v) = true → s.nextHas s.pc n) :
    Does s (skipOnBit a b v s) (Effect.skipIf { s.quiet 2 with operand := some a } s (s.readBit a b == v) n) :=
  does_finishSkip_operand a 2 _ n (SameButRam.refl _) ((Wrote.refl s h).touch a) hn

theorem cyFromBit_does (f : Bool → Bool → Bool) (s : State) (h : Memory.wf ramDefault ramSize s.ram = true) (a : DAddr)
    (b : BitVec 2) :
    Does s (cyFromBit f a b s) { s.quiet 2 with cy := f s.cy (s.readBit a b), operand := some a } :=
  does_finish_operand_cy a _ 2 (SameButRam.refl _) (((Wrote.refl s h).touch a).setCy _)

theorem testAndClear_zero (s : State) (h : Memory.wf ramDefault ramSize s.ram = true) (a : DAddr) (b : BitVec 2)
    (hb : s.readBit a b = false) : Does s (testAndClear a b s) { s.quiet 2 with operand := some a } := by
  unfold testAndClear
  rw [if_neg (by simp [hb])]
  exact does_finish_operand a 2 (SameButRam.refl _) ((Wrote.refl s h).touch a)

theorem testAndClear_one (s : State) (h : Memory.wf ramDefault ramSize s.ram = true) (a : DAddr) (b : BitVec 2) (n : Nat)
    (hb : s.readBit a b = true) (hn : s.nextHas s.pc n) (ha : isIo a = false) :
    Does s (testAndClear a b s)
      (Effect.skipIf { s.quiet 2 with words := ramWords a (withBit (s.ramRead a) b false), operand := some a } s
        true n) := by
  unfold testAndClear
  rw [if_pos hb, State.writeBit, if_neg (by simp [ha]), nibSet_eq_withBit]
  exact does_finishSkip_operand a 2 true n ((SameButRam.refl _).ramWrite a _)
    ((((Wrote.refl s h).touch a).ramWrite a _).cast (List.append_nil _)) (fun _ => hn)

theorem incsAt_does (s : State) (h : Memory.wf ramDefault ramSize s.ram = true) (a : DAddr) (n : Nat)
    (ha : isIo a = false) (hn : (s.read4 a + 1 == 0) = true → s.nextHas s.pc n) :
    Does s (incsAt a s)
      (Effect.skipIf { s.quiet 2 with words := ramWords a (s.read4 a + 1), operand := some a } s
        (s.read4 a + 1 == 0) n) := by
  show Does s (andThen ((s.touch a).write4 a (s.read4 a + 1)) _) _
  rw [State.write4_outside _ _ _ ha]
  exact does_finishSkip_operand a 2 _ n ((SameButRam.refl _).ramWrite a _)
    ((((Wrote.refl s h).touch a).ramWrite a _).cast (List.append_nil _)) hn

theorem tableRead_does (s : State) (h : Memory.wf ramDefault ramSize s.ram = true) (a : Nat) (b : Byte)
    (hb : s.romByte a = some b) : Does s (tableRead a s) { s.quiet 3 with words := s.xaWords b } := by
  unfold tableRead
  rw [hb]
  exact does_setPair s h .xa b 3

theorem tableRead_stop (s : State) (a : Nat) (hb : s.romByte a = none) :
    tableRead a s = .fault (.beyondRom (s.romAddr a)) := by
  unfold tableRead
  rw [hb]

theorem jump_does (s : State) (t c : Nat) :
    Does s (jump t c s) { s.quiet c with pc := s.truncPc t } := by
  refine ⟨(s.setPc t).ended c, rfl, ?_, fun a => rfl⟩
  simp only [State.quiet, Option.map_none, Option.getD_none, Bool.or_false]
  rfl

/-- EI and DI: IME, the hold-off of an interrupt control instruction, two machine cycles. -/
theorem setIme_eq (v : Bool) (s : State) :
    setIme v s = .next ({ s with ints := { s.ints with ime := v } }.held.after 2) := by
  simp [setIme, State.touch, State.finish, State.ended, State.held, State.after]

/-- HALT: PCC.2, HALT mode, the hold-off, two machine cycles. -/
theorem haltCpu_eq (s : State) : haltCpu s = .next (s.enterHalt.held.after 2) := by
  simp [haltCpu, State.enterHalt, State.touch, State.finish, State.ended, State.held, State.after]

/-- STOP: all that it can do. -/
theorem stopCpu_cases (s : State) :
    (s.enterStop = .refused .stopOnSubclock ∧ stopCpu s = .refused .stopOnSubclock) ∨
    ∃ t, s.enterStop = .next t ∧ stopCpu s = .next (t.held.after 2) := by
  cases h : (s.clk.scc0 || s.clk.phi.sub)
  · refine .inr ⟨{ s with standby := .stop, clk := { s.clk with pcc := s.clk.pcc ||| 0x8 } }, ?_, ?_⟩
    · simp [State.enterStop, h]
    · simp [stopCpu, State.enterStop, State.touch, h, State.finish, State.ended, State.held, State.after]
  · exact .inl ⟨by simp [State.enterStop, h], by simp [stopCpu, State.enterStop, State.touch, h]⟩

end Sys2Proof.Machine
end

