-- ==== Sys2Proof/Tests/Slice0.lean ====
section
/-! SUPPORT. Tests: ill-formed terms that WellFormed refuses; words written out from the encoding tables; single steps
with results worked out from the spec; and, for each statement with hypotheses, a state and operands that meet them. -/

namespace Sys2Proof.Tests

open Sys2Proof Sys2Proof.Machine

/-! ### WellFormed: each check refuses an ill-formed term -/

theorem test_wf_reg1 : (Instr.movReg1Imm .a 3).wf = false ∧ (Instr.movReg1A .a).wf = false ∧
    (Instr.xchAReg1 .a).wf = false ∧ (Instr.movReg1Imm .x 3).wf = true := by decide

theorem test_wf_rp2 : (Instr.movRp2Imm .xa 3).wf = false ∧ (Instr.movRp2Imm .hl 3).wf = false ∧
    (Instr.movRp2Imm .de 3).wf = true := by decide

theorem test_wf_rp1 : (Instr.incsRp1 .xa).wf = false ∧ (Instr.incsRp1 .hl).wf = true := by decide

theorem test_wf_rpP1 : (Instr.movRpXa .xa).wf = false ∧ (Instr.addsRpXa .xa).wf = false ∧
    (Instr.addcRpXa .xa).wf = false ∧ (Instr.subsRpXa .xa).wf = false ∧ (Instr.subcRpXa .xa).wf = false ∧
    (Instr.andRpXa .xa).wf = false ∧ (Instr.orRpXa .xa).wf = false ∧ (Instr.xorRpXa .xa).wf = false ∧
    (Instr.movRpXa .xa').wf = true := by decide

theorem test_wf_mem8 : (Instr.movXaMem 0x21).wf = false ∧ (Instr.movMemXa 0x21).wf = false ∧
    (Instr.xchXaMem 0x21).wf = false ∧ (Instr.movXaMem 0x20).wf = true := by decide

theorem test_wf_port_spellings : (Instr.movAMem 0xF6).wf = false ∧ (Instr.movXaMem 0xF4).wf = false ∧
    (Instr.movMemA 0xF2).wf = false ∧ (Instr.movMemXa 0xF4).wf = false ∧ (Instr.inAPort 7).wf = false ∧
    (Instr.outPortA 1).wf = false ∧ (Instr.inAPort 11).wf = true ∧ (Instr.outPortA 6).wf = true := by decide

theorem test_wf_code_spellings : (Instr.addsAImm 0).wf = false ∧ (Instr.xorAImm 0xF).wf = false ∧
    (Instr.set1Fmem false 2 3).wf = false ∧ (Instr.set1Fmem false 3 2).wf = false ∧
    (Instr.set1Fmem false 8 1).wf = false ∧ (Instr.clr1Fmem false 2 3).wf = false ∧
    (Instr.clr1Fmem false 0xE 3).wf = false ∧ (Instr.clr1Fmem false 3 2).wf = true := by decide

theorem test_wf_branch : (Instr.brFwd 0).wf = false ∧ (Instr.brBwd 0xF).wf = false ∧ (Instr.brBwd 0).wf = true := by
  decide

theorem test_wf_unassigned : (Instr.unassigned 0x60 none).wf = false ∧ (Instr.unassigned 0x99 (some 0x5F)).wf = false ∧
    (Instr.unassigned 0xFF none).wf = true ∧ (Instr.unassigned 0xAA (some 0x50)).wf = true := by decide

theorem test_isPseudo : (Instr.brAuto 5).isPseudo = true ∧ (Instr.tbr 5).isPseudo = true ∧ Instr.nop.isPseudo = false := by
  decide

/-! ### Decoding: words from the encoding tables (R123 to R127, R144 to R147) -/

/-- The one instruction of a list of bytes, all of them used. -/
def dec (l : List Byte) : Option Instr :=
  match decode l with
  | .ok (i, []) => some i
  | _ => none

theorem test_decode_transfer_1 :
    dec [0x76] = some (.movAImm 0x6) ∧
    dec [0x9A, 0x7A] = some (.movReg1Imm .l 0x7) ∧
    dec [0x89, 0xA7] = some (.movXaImm 0xA7) ∧
    dec [0x8B, 0x0D] = some (.movHlImm 0xD) ∧
    dec [0x8D, 0xD3] = some (.movRp2Imm .de 0xD3) ∧
    dec [0xE1] = some .movAHl ∧
    dec [0xE2] = some .movAHlInc ∧
    dec [0xE3] = some .movAHlDec ∧
    dec [0xE4] = some (.movARpa1 .de) ∧
    dec [0xAA, 0x18] = some .movXaHl ∧
    dec [0xE8] = some .movHlA ∧
    dec [0xAA, 0x10] = some .movHlXa ∧
    dec [0xA3, 0x5E] = some (.movAMem 0x5E) ∧
    dec [0xA2, 0x96] = some (.movXaMem 0x96) ∧
    dec [0x93, 0x0F] = some (.movMemA 0xF) ∧
    dec [0x92, 0xE8] = some (.movMemXa 0xE8) ∧
    dec [0x99, 0x7D] = some (.movAReg .d) ∧
    dec [0xAA, 0x5A] = some (.movXaRp .hl) ∧
    dec [0x99, 0x71] = some (.movReg1A .x) ∧
    dec [0xAA, 0x51] = some (.movRpXa .xa') := by decide

theorem test_decode_transfer_2 :
    dec [0xE9] = some .xchAHl ∧
    dec [0xEA] = some .xchAHlInc ∧
    dec [0xEB] = some .xchAHlDec ∧
    dec [0xED] = some (.xchARpa1 .dl) ∧
    dec [0xAA, 0x11] = some .xchXaHl ∧
    dec [0xB3, 0x6C] = some (.xchAMem 0x6C) ∧
    dec [0xB2, 0x12] = some (.xchXaMem 0x12) ∧
    dec [0xDA] = some (.xchAReg1 .l) ∧
    dec [0xAA, 0x41] = some (.xchXaRp .xa') ∧
    dec [0xD4] = some .movtPcde ∧
    dec [0xD0] = some .movtPcxa ∧
    dec [0xD5] = some .movtBcde ∧
    dec [0xD1] = some .movtBcxa ∧
    dec [0xBD, 0xA9] = some (.mov1CyFmem false 0x9 0x2) ∧
    dec [0xBD, 0x4E] = some (.mov1CyPmem 0xE) ∧
    dec [0xBD, 0x1A] = some (.mov1CyHmem 0xA 0x1) ∧
    dec [0x9B, 0xD4] = some (.mov1ToFmem true 0x4 0x1) ∧
    dec [0x9B, 0x41] = some (.mov1ToPmem 0x1) ∧
    dec [0x9B, 0x14] = some (.mov1ToHmem 0x4 0x1) := by decide

theorem test_decode_arithmetic_1 :
    dec [0x69] = some (.addsAImm 0x9) ∧
    dec [0xB9, 0xDC] = some (.addsXaImm 0xDC) ∧
    dec [0xD2] = some .addsAHl ∧
    dec [0xAA, 0xCA] = some (.addsXaRp .hl) ∧
    dec [0xAA, 0xC3] = some (.addsRpXa .hl') ∧
    dec [0xA9] = some .addcAHl ∧
    dec [0xAA, 0xDC] = some (.addcXaRp .de) ∧
    dec [0xAA, 0xD2] = some (.addcRpXa .hl) ∧
    dec [0xA8] = some .subsAHl ∧
    dec [0xAA, 0xED] = some (.subsXaRp .de') ∧
    dec [0xAA, 0xE1] = some (.subsRpXa .xa') ∧
    dec [0xB8] = some .subcAHl ∧
    dec [0xAA, 0xFD] = some (.subcXaRp .de') ∧
    dec [0xAA, 0xF3] = some (.subcRpXa .hl') ∧
    dec [0x99, 0x39] = some (.andAImm 0x9) ∧
    dec [0x90] = some .andAHl ∧
    dec [0xAA, 0x9F] = some (.andXaRp .bc') ∧
    dec [0xAA, 0x96] = some (.andRpXa .bc) ∧
    dec [0x99, 0x43] = some (.orAImm 0x3) ∧
    dec [0xA0] = some .orAHl := by decide

theorem test_decode_arithmetic_2 :
    dec [0xAA, 0xA9] = some (.orXaRp .xa') ∧
    dec [0xAA, 0xA5] = some (.orRpXa .de') ∧
    dec [0x99, 0x5A] = some (.xorAImm 0xA) ∧
    dec [0xB0] = some .xorAHl ∧
    dec [0xAA, 0xBE] = some (.xorXaRp .bc) ∧
    dec [0xAA, 0xB2] = some (.xorRpXa .hl) ∧
    dec [0x98] = some .rorcA ∧
    dec [0x99, 0x5F] = some .notA := by decide

theorem test_decode_increment_compare :
    dec [0xC3] = some (.incsReg .h) ∧
    dec [0x8A] = some (.incsRp1 .hl) ∧
    dec [0x99, 0x02] = some .incsHl ∧
    dec [0x82, 0x8D] = some (.incsMem 0x8D) ∧
    dec [0xCE] = some (.decsReg .c) ∧
    dec [0xAA, 0x69] = some (.decsRp .xa') ∧
    dec [0x9A, 0x15] = some (.skeRegImm .d 0x1) ∧
    dec [0x99, 0x6A] = some (.skeHlImm 0xA) ∧
    dec [0x80] = some .skeAHl ∧
    dec [0xAA, 0x19] = some .skeXaHl ∧
    dec [0x99, 0x0A] = some (.skeAReg .l) ∧
    dec [0xAA, 0x4C] = some (.skeXaRp .de) := by decide

theorem test_decode_bit_1 :
    dec [0xE7] = some .set1Cy ∧
    dec [0xE6] = some .clr1Cy ∧
    dec [0xD7] = some .sktCy ∧
    dec [0xD6] = some .not1Cy ∧
    dec [0xA5, 0xAF] = some (.set1Mem 0xAF 0x2) ∧
    dec [0x9D, 0xED] = some (.set1Fmem true 0xD 0x2) ∧
    dec [0x9D, 0x4A] = some (.set1Pmem 0xA) ∧
    dec [0x9D, 0x28] = some (.set1Hmem 0x8 0x2) ∧
    dec [0x94, 0x4D] = some (.clr1Mem 0x4D 0x1) ∧
    dec [0x9C, 0xDD] = some (.clr1Fmem true 0xD 0x1) ∧
    dec [0x9C, 0x42] = some (.clr1Pmem 0x2) ∧
    dec [0x9C, 0x2A] = some (.clr1Hmem 0xA 0x2) ∧
    dec [0xA7, 0x87] = some (.sktMem 0x87 0x2) ∧
    dec [0xBF, 0xE6] = some (.sktFmem true 0x6 0x2) ∧
    dec [0xBF, 0x4A] = some (.sktPmem 0xA) ∧
    dec [0xBF, 0x12] = some (.sktHmem 0x2 0x1) ∧
    dec [0xA6, 0x84] = some (.skfMem 0x84 0x2) ∧
    dec [0xBE, 0xA3] = some (.skfFmem false 0x3 0x2) ∧
    dec [0xBE, 0x48] = some (.skfPmem 0x8) ∧
    dec [0xBE, 0x17] = some (.skfHmem 0x7 0x1) := by decide

theorem test_decode_bit_2 :
    dec [0x9F, 0xDB] = some (.sktclrFmem true 0xB 0x1) ∧
    dec [0x9F, 0x46] = some (.sktclrPmem 0x6) ∧
    dec [0x9F, 0x2C] = some (.sktclrHmem 0xC 0x2) ∧
    dec [0xAC, 0xEA] = some (.and1Fmem true 0xA 0x2) ∧
    dec [0xAC, 0x42] = some (.and1Pmem 0x2) ∧
    dec [0xAC, 0x1E] = some (.and1Hmem 0xE 0x1) ∧
    dec [0xAE, 0xA5] = some (.or1Fmem false 0x5 0x2) ∧
    dec [0xAE, 0x41] = some (.or1Pmem 0x1) ∧
    dec [0xAE, 0x2C] = some (.or1Hmem 0xC 0x2) ∧
    dec [0xBC, 0xEB] = some (.xor1Fmem true 0xB 0x2) ∧
    dec [0xBC, 0x4C] = some (.xor1Pmem 0xC) ∧
    dec [0xBC, 0x27] = some (.xor1Hmem 0x7 0x2) := by decide

theorem test_decode_branch :
    dec [0xAB, 0x01, 0x72] = some (.br 0x172) ∧
    dec [0xBA, 0x78, 0x68] = some (.bra 0x7868) ∧
    dec [0x08] = some (.brFwd 0x8) ∧
    dec [0xF6] = some (.brBwd 0x6) ∧
    dec [0x52, 0xB1] = some (.brcb 0x2B1) ∧
    dec [0x99, 0x04] = some .brPcde ∧
    dec [0x99, 0x00] = some .brPcxa ∧
    dec [0x99, 0x05] = some .brBcde ∧
    dec [0x99, 0x01] = some .brBcxa := by decide

theorem test_decode_subroutine :
    dec [0xAB, 0x67, 0x1A] = some (.call 0x271A) ∧
    dec [0xBB, 0x0E, 0xFD] = some (.calla 0xEFD) ∧
    dec [0x43, 0xF4] = some (.callf 0x3F4) ∧
    dec [0xEE] = some .ret ∧
    dec [0xE0] = some .rets ∧
    dec [0xEF] = some .reti ∧
    dec [0x4B] = some (.pushRp .hl) ∧
    dec [0x4A] = some (.popRp .hl) ∧
    dec [0x99, 0x07] = some .pushBs ∧
    dec [0x99, 0x06] = some .popBs := by decide

theorem test_decode_control_1 :
    dec [0x9D, 0xB2] = some .ei ∧
    dec [0x9C, 0xB2] = some .di ∧
    dec [0x9D, 0x98] = some .eiIeBt ∧
    dec [0x9D, 0x9A] = some .eiIeW ∧
    dec [0x9D, 0x9C] = some .eiIeT0 ∧
    dec [0x9D, 0x9D] = some .eiIeCsi ∧
    dec [0x9D, 0x9E] = some .eiIe0 ∧
    dec [0x9D, 0x9F] = some .eiIe2 ∧
    dec [0x9D, 0xB8] = some .eiIe4 ∧
    dec [0x9D, 0xBC] = some .eiIeT1 ∧
    dec [0x9D, 0xBE] = some .eiIe1 ∧
    dec [0x9C, 0x98] = some .diIeBt ∧
    dec [0x9C, 0x9A] = some .diIeW ∧
    dec [0x9C, 0x9C] = some .diIeT0 ∧
    dec [0x9C, 0x9D] = some .diIeCsi ∧
    dec [0x9C, 0x9E] = some .diIe0 ∧
    dec [0x9C, 0x9F] = some .diIe2 ∧
    dec [0x9C, 0xB8] = some .diIe4 ∧
    dec [0x9C, 0xBC] = some .diIeT1 ∧
    dec [0x9C, 0xBE] = some .diIe1 := by decide

theorem test_decode_control_2 :
    dec [0xA3, 0xF4] = some (.inAPort 0x4) ∧
    dec [0xA2, 0xF4] = some .inXaPort ∧
    dec [0x93, 0xF5] = some (.outPortA 0x5) ∧
    dec [0x92, 0xF4] = some .outPortXa ∧
    dec [0x9D, 0xA3] = some .halt ∧
    dec [0x9D, 0xB3] = some .stop ∧
    dec [0x60] = some .nop ∧
    dec [0x99, 0x21] = some (.selRb 0x1) ∧
    dec [0x99, 0x17] = some (.selMb 0x7) := by decide

theorem test_decode_geti :
    dec [0x17] = some (.getiLow 0x7) ∧
    dec [0x3E] = some (.getiHigh 0x1E) := by decide

/-- R148: unassigned first bytes, unassigned second bytes. -/
theorem test_decode_unassigned :
    dec [0xFF] = some (.unassigned 0xFF none) ∧ dec [0x00] = some (.unassigned 0x00 none) ∧
    dec [0x99, 0x80] = some (.unassigned 0x99 (some 0x80)) ∧ dec [0x9A, 0x38] = some (.unassigned 0x9A (some 0x38)) ∧
    dec [0xAA, 0x60] = some (.unassigned 0xAA (some 0x60)) ∧ dec [0x9D, 0x50] = some (.unassigned 0x9D (some 0x50)) ∧
    dec [0xAB, 0x80] = some (.unassigned 0xAB (some 0x80)) := by decide

/-- R402: the marks 00 and 01 of a table entry are TBR and TCALL. -/
theorem test_decode_entry : decodeEntry 0x1A 0xBC = .one (.tbr 0x1ABC) ∧ decodeEntry 0x5A 0xBC = .one (.tcall 0x1ABC) ∧
    decodeEntry 0xE1 0xC2 = .two .movAHl (.incsReg .l) ∧ decodeEntry 0x89 0x12 = .one (.movXaImm 0x12) := by decide

/-- R330, R331 (log 35): the assembler's choices are written as `BR !addr`. -/
theorem test_encode_pseudo : encode (.brAuto 0x1ABC) = [0xAB, 0x1A, 0xBC] ∧
    encode (.brAuto1 0x1ABC) = [0xAB, 0x1A, 0xBC] ∧ encode (.tbr 0x1ABC) = [0x1A, 0xBC] ∧
    encode (.tcall 0x1ABC) = [0x5A, 0xBC] := by decide

/-- Words as spec/opcode_table.json numbers them (log 1). -/
theorem test_table_word : decodeTableWord 8 0x7B = some (.movAImm 0xB) ∧ decodeTableWord 16 0x9A3B = some (.movReg1Imm .h 3) ∧
    decodeTableWord 24 0xAB5ABC = some (.call 0x1ABC) := by decide

theorem test_truncated : dec [] = none ∧ dec [0xAB] = none ∧ dec [0xAB, 0x10] = none := by decide

/-! ### Single steps

`st mbe mbs ram rom`: the state after reset with the bank, some words of data memory (00H-07H are A, X, L, H, E, D, C, B of
bank 0) and some program bytes; PC = 0100H, SP = 80H. -/

def st (mbe : Bool) (mbs : Nibble) (ram : List (Nat × Nibble)) (rom : List Host.Cell) : State :=
  { State.reset with mbe := mbe, mbs := mbs, ram := ram, rom := rom, pc := 0x100, sp := 0x80 }

/-- The state of a next answer. -/
def nextOf (r : Result) : Option State :=
  match r with
  | .next s => some s
  | _ => none

def refusalOf (r : Result) : Option Refusal :=
  match r with
  | .refused x => some x
  | _ => none

def faultOf (r : Result) : Option Fault :=
  match r with
  | .fault x => some x
  | _ => none

def isNext (r : Result) : Bool := (nextOf r).isSome

theorem next_of_isNext {r : Result} (h : isNext r = true) : ∃ t, r = .next t := by
  cases r with
  | next t => exact ⟨t, rfl⟩
  | fault _ => cases h
  | refused _ => cases h

/-- PC, CY, A and X (of bank 0) and machine cycles after one step. -/
def look (r : Result) : Option (BitVec 14 × Bool × Nibble × Nibble × Nat) :=
  (nextOf r).map fun t => (t.pc, t.cy, t.ramRead 0, t.ramRead 1, t.cycles)

/-- R164: HL = 3FH; R161: a second stacked instruction of the group is a NOP. -/
theorem test_step_stacked :
    look (step (st false 0 [] [(0x100, 0x75)])) = some (0x101, false, 5, 0, 1) ∧
    look (step { st false 0 [(0, 9)] [(0x100, 0x75)] with stacked := .groupA }) = some (0x101, false, 9, 0, 1) := by
  decide

/-- R211: ADDS XA,#n8: FFH + 01H = 00H, carry, the next instruction (3 bytes, 2 cycles) is skipped; CY stays. -/
theorem test_step_adds_skip :
    look (step (st false 0 [(0, 15), (1, 15)] [(0x100, 0xB9), (0x101, 0x01), (0x102, 0xAB)])) =
      some (0x105, false, 0, 0, 4) := by decide

/-- R215: ADDC A,@HL with A = 9, @HL = 8, CY = 1: A = 2, CY = 1. HL = 10H, its word is at 010H. -/
theorem test_step_addc :
    look (step { st false 0 [(0, 9), (3, 1), (16, 8)] [(0x100, 0xA9), (0x101, 0x7F)] with cy := true }) =
      some (0x101, true, 2, 0, 1) := by decide

/-- R221, R130: SUBC A,@HL without borrow skips the ADDS A,#n4 behind it. -/
theorem test_step_subc_skips_adds :
    look (step (st false 0 [(0, 9), (3, 1), (16, 8)] [(0x100, 0xB8), (0x101, 0x6A)])) = some (0x102, false, 1, 0, 2) := by
  decide

/-- R236: RORC A with A = 0101B, CY = 1: A = 1010B, CY = 1. -/
theorem test_step_rorc :
    look (step { st false 0 [(0, 5)] [(0x100, 0x98)] with cy := true }) = some (0x101, true, 10, 0, 1) := by decide

/-- R188: XCH A,X. -/
theorem test_step_xch : look (step (st false 0 [(0, 3), (1, 12)] [(0x100, 0xD9)])) = some (0x101, false, 12, 3, 1) := by
  decide

/-- R323: BR $addr: forward distance 16 (0FH), backward distance 15 (F0H), from the instruction itself. -/
theorem test_step_br_relative :
    look (step (st false 0 [] [(0x100, 0x0F)])) = some (0x110, false, 0, 0, 2) ∧
    look (step (st false 0 [] [(0x100, 0xF0)])) = some (0x0F1, false, 0, 0, 2) := by decide

/-- R352, R350: CALL in Mk I mode pushes the address 0103H: words 0, 3, 1 and the flags at 7FH, 7EH, 7CH, 7DH. -/
theorem test_step_call :
    (nextOf (step (st false 0 [] [(0x100, 0xAB), (0x101, 0x41), (0x102, 0x23)]))).map
      (fun t => (t.pc, t.sp, t.ramRead 0x7F, t.ramRead 0x7E, t.ramRead 0x7D, t.ramRead 0x7C)) =
    some (0x123, 0x7C, 0, 3, 4, 1) := by decide

/-- R358: PUSH HL: H at SP-1, L at SP-2. -/
theorem test_step_push :
    (nextOf (step (st false 0 [(2, 4), (3, 11)] [(0x100, 0x4B)]))).map
      (fun t => (t.sp, t.ramRead 0x7F, t.ramRead 0x7E)) = some (0x7E, 11, 4) := by decide

/-- R400 to R403: GETI on a TBR entry at 0020H. -/
theorem test_step_geti_tbr :
    look (step (st false 0 [] [(0x20, 0x01), (0x21, 0x23), (0x100, 0x10)])) = some (0x123, false, 0, 0, 3) := by decide

/-- R148, U1: an unassigned code is refused by name. -/
theorem test_step_unassigned : refusalOf (step (st false 0 [] [(0x100, 0xFF)])) = some (.unassigned 0xFF none) := by decide

/-- R82: fetch beyond the ROM. -/
theorem test_step_beyond :
    faultOf (step { st false 0 [] [] with chip := { State.reset.chip with part := .upd750066 }, pc := 0x1800 }) =
      some (.beyondRom 0x1800) := by decide

/-- The host's word stands where the next step fetches. -/
theorem test_fetch_word : look (step (State.reset.withFetchWord 16 0x893C)) = some (0x062, false, 12, 3, 2) := by decide

/-! ### The hypotheses of the statements can be met

One theorem for each statement with hypotheses, with a case for each clause, at a boundary where there is one. -/

/-- `State.Inv` as a computation. -/
def invOk (s : State) : Bool :=
  Memory.wf romDefault (2 ^ s.chip.part.pcWidth) s.rom && Memory.wf ramDefault ramSize s.ram && !s.sp.getLsbD 0 &&
    decide (s.pc.toNat < 2 ^ s.chip.part.pcWidth) && !s.clk.clom.getLsbD 2 && !s.watch.wm.getLsbD 3 &&
    !s.watch.wm.getLsbD 6 && (s.ports.poga &&& 0xB0 == 0) && btmCodeOk s.bt.btm && csimOk s.serial.csim &&
    decide (s.timer0.mode = 0 ∧ s.timer1.mode = 0)

theorem inv_of_ok {s : State} (h : invOk s = true) : s.Inv := by
  simp only [invOk, Bool.and_eq_true, Bool.not_eq_true', decide_eq_true_eq, beq_iff_eq] at h
  obtain ⟨⟨⟨⟨⟨⟨⟨⟨⟨⟨h1, h2⟩, h3⟩, h4⟩, h5⟩, h6⟩, h7⟩, h8⟩, h9⟩, h10⟩, h11⟩ := h
  exact ⟨h1, h2, h3, h4, h5, ⟨h6, h7⟩, h8, h9, h10, .inl ⟨h11.1, .inl h11.2⟩⟩

/-- The byte at `pc` and the length it gives, as a computation. -/
def nextOk (s : State) (n : Nat) : Bool := (s.romByte s.pc.toNat).bind lengthOf == some n

theorem nextHas_of_ok {s : State} {n : Nat} (h : nextOk s n = true) : s.nextHas s.pc n := by
  simp only [nextOk, beq_iff_eq] at h
  cases hb : s.romByte s.pc.toNat with
  | none => rw [hb] at h; cases h
  | some b => rw [hb] at h; exact ⟨b, hb, h⟩

/-- HL = 00H: the operand is A itself. -/
def sZero : State := st false 0 [] []
/-- MBE = 1, MBS = 15, HL = 7FH: the last address below the peripheral area; L = 15; a three-byte instruction follows. -/
def sBelow : State := st true 15 [(0, 4), (2, 15), (3, 7)] [(0x100, 0xAB)]
/-- HL = 80H: the first peripheral address; L = 0. -/
def sIo : State := st true 15 [(0, 4), (3, 8)] []
/-- HL = 8FH, L = 15. -/
def sIoUp : State := st true 15 [(2, 15), (3, 8)] []
/-- HL = C0H, BSB0 = 15. -/
def sBsb : State := { st true 15 [(3, 12)] [] with bsb0 := 15 }
/-- MBE = 1, MBS = 1, HL = FFH: the last word of RAM. -/
def sTop : State := st true 1 [(0, 15), (1, 15), (2, 15), (3, 15), (0x1FF, 15)] [(0x100, 0xAB)]
/-- HL = 02H: the operand is L itself; A = 15. -/
def sOnL : State := st false 0 [(0, 15), (2, 2)] []
/-- XA = FFH, HL = 01H, BC = 1FH, DE = FFH; the word at 01H (X) is 15. -/
def sFull : State := st false 0 [(0, 15), (1, 15), (2, 1), (4, 15), (5, 15), (6, 15), (7, 1)] []
/-- XA = 00H, HL = 01H, the word at 01H is X = 0; L = 1. -/
def sOne : State := st false 0 [(2, 1)] []

theorem test_states_inv : sZero.Inv ∧ sBelow.Inv ∧ sIo.Inv ∧ sIoUp.Inv ∧ sBsb.Inv ∧ sTop.Inv ∧ sOnL.Inv ∧ sFull.Inv ∧
    sOne.Inv :=
  ⟨inv_of_ok (by decide), inv_of_ok (by decide), inv_of_ok (by decide), inv_of_ok (by decide), inv_of_ok (by decide),
    inv_of_ok (by decide), inv_of_ok (by decide), inv_of_ok (by decide), inv_of_ok (by decide)⟩

/-- `decode_of_encode`. -/
theorem test_meets_decode_of_encode : (Instr.movRp2Imm .bc 0xFF).wf = true ∧ (Instr.movRp2Imm .bc 0xFF).isPseudo = false ∧
    (Instr.callf 0x7FF).wf = true ∧ (Instr.callf 0x7FF).isPseudo = false := by decide

/-- `encode_of_decode`. -/
theorem test_meets_encode_of_decode : decode [0x8F, 0xFF, 0x60] = .ok (.movRp2Imm .bc 0xFF, [0x60]) := rfl

/-- `first_byte_gives_length`: three bytes, exactly there. -/
theorem test_meets_first_byte_gives_length : lengthOf 0xAB = some 3 ∧ 3 ≤ ([0xFF, 0xFF] : List Byte).length + 1 := by decide

/-- The statements whose only hypothesis is the invariant: `register_moves`, `memory_loads`, `logic_operations`,
`accumulator_manipulation`, `pair_arithmetic_with_carry`, `nop_and_bank_selection`, `return_from_interrupt`,
`push_and_pop`, `bit_to_carry` (its list has these members), and `stacked_immediates` in its three states. -/
theorem test_meets_invariant_only : sFull.Inv ∧ RpP.xa' ≠ .xa ∧ (14 : Nibble) ≠ 15 ∧
    ({ sZero with stacked := .groupA } : State).Inv ∧ ({ sZero with stacked := .groupB } : State).Inv :=
  ⟨test_states_inv.2.2.2.2.2.2.2.1, by decide, by decide, inv_of_ok (by decide), inv_of_ok (by decide)⟩

/-- `memory_stores`: operands below, in and at the edges of the peripheral area, and a store there that goes through. -/
theorem test_meets_memory_stores :
    isIo sBelow.eaHl = false ∧ isIo sTop.eaHl = false ∧ isIo sIo.eaHl = true ∧
    isNext ((sIo.touch sIo.eaHl).ioWrite4 sIo.eaHl (sIo.getReg .a)) = true ∧
    isIo (sZero.eaMem 0x7F) = false ∧ isIo (sZero.eaMem 0x80) = true ∧
    isNext ((sZero.touch 0xF84).ioWrite4 (sZero.eaMem 0x84) 4) = true ∧
    isIo (sTop.eaMem 0xF3) = false ∧ isIo (sZero.eaMem 0xF3) = true ∧
    isIo sBelow.eaHl8 = false ∧ isIo sIo.eaHl8 = true ∧
    isNext ((sIo.touch sIo.eaHl8).ioWrite8 sIo.eaHl8 (sIo.getPair .xa)) = true ∧
    isIo (sTop.eaMem 0xF4) = false ∧ isIo (sZero.eaMem 0xF4) = true ∧
    isNext ((sZero.touch 0xFF4).ioWrite8 0xFF4 (sZero.getPair .xa)) = true := by decide

/-- `memory_exchanges`. -/
theorem test_meets_memory_exchanges :
    isIo sBelow.eaHl = false ∧ isIo sIo.eaHl = true ∧ isNext ((sIo.touch 0xF80).ioWrite4 0xF80 (sIo.getReg .a)) = true ∧
    isIo (sBelow.eaRpa1 .de) = false ∧ isIo (sBelow.eaRpa1 .dl) = false ∧ isIo (sZero.eaMem 0x7F) = false ∧
    isIo (sZero.eaMem 0x80) = true ∧ isIo sBelow.eaHl8 = false ∧ isIo sIo.eaHl8 = true ∧
    isNext ((sIo.touch 0xF80).ioWrite8 0xF80 (sIo.getPair .xa)) = true := by decide

/-- `autoincrement_transfers`: L at the two ends, the operand in the peripheral area and not, and L itself. -/
theorem test_meets_autoincrement_transfers :
    (sBelow.getReg .l = 15 ∧ nextOk sBelow 3 = true) ∧ (sIo.getReg .l = 0 ∧ nextOk sIo 1 = true) ∧
    (isIo sBelow.eaHl = false ∧ sBelow.eaHl ≠ regAddr sBelow.regBank .l) ∧
    (isIo sOnL.eaHl = false ∧ sOnL.eaHl = regAddr sOnL.regBank .l ∧ sOnL.getReg .a = 15 ∧ nextOk sOnL 1 = true) ∧
    (isIo sZero.eaHl = false ∧ sZero.getReg .l = 0 ∧ nextOk sZero 1 = true) ∧
    (isIo sIo.eaHl = true ∧ isNext ((sIo.touch sIo.eaHl).ioWrite4 sIo.eaHl (sIo.getReg .a)) = true) ∧
    (isIo sIoUp.eaHl = true ∧ sIoUp.getReg .l = 15 ∧ nextOk sIoUp 1 = true ∧
      isNext ((sIoUp.touch sIoUp.eaHl).ioWrite4 sIoUp.eaHl (sIoUp.getReg .a)) = true) := by decide

/-- `table_references`: BCDE and BCXA at the last byte of the ROM. -/
theorem test_meets_table_references :
    sFull.romByte (sFull.pc.toNat / 256 * 256 + (sFull.getPair .de).toNat) = some 0x60 ∧
    sFull.romByte (sFull.pc.toNat / 256 * 256 + (sFull.getPair .xa).toNat) = some 0x60 ∧
    sFull.romByte (sFull.getPair .bc ++ sFull.getPair .de).toNat = some 0x60 ∧
    sFull.romByte (sFull.getPair .bc ++ sFull.getPair .xa).toNat = some 0x60 ∧
    (sFull.getPair .bc ++ sFull.getPair .xa).toNat + 1 = sFull.chip.part.romSize := by decide

/-- `pair_arithmetic_with_skip`: a carry and a borrow that are just reached. -/
theorem test_meets_pair_arithmetic_with_skip :
    256 ≤ (sFull.getPair .xa).toNat + (1 : Byte).toNat ∧ 256 ≤ (sFull.getPair .xa).toNat + (sFull.getRpP .hl).toNat ∧
    256 ≤ (sFull.getRpP .hl).toNat + (sFull.getPair .xa).toNat ∧ nextOk sFull 1 = true ∧
    (sOne.getPair .xa).toNat < (sOne.getRpP .hl).toNat ∧ nextOk sOne 1 = true ∧
    (sFull.getRpP .hl).toNat < (sFull.getPair .xa).toNat := by decide

/-- `accumulator_arithmetic_with_skip`. -/
theorem test_meets_accumulator_arithmetic_with_skip :
    (16 ≤ (sFull.getReg .a).toNat + (1 : Nibble).toNat ∧ sFull.addsNoskip = false) ∧
    16 ≤ (sFull.getReg .a).toNat + (sFull.read4 sFull.eaHl).toNat ∧ nextOk sFull 1 = true ∧
    ((st false 0 [(1, 1), (2, 1)] []).getReg .a).toNat < ((st false 0 [(1, 1), (2, 1)] []).read4 0x001).toNat := by decide

/-- `radix_adjustment`: an ADDS A,#n4 behind (60H has its high nibble), with and without a carry, and another instruction
behind. -/
theorem test_meets_radix_adjustment :
    (sFull.romByte sFull.pc.toNat = some 0x60 ∧ (0x60 : Byte).extractLsb' 4 4 = 6#4) ∧
    16 ≤ (sFull.getReg .a).toNat + (sFull.read4 sFull.eaHl).toNat + sFull.cy.toNat ∧
    ¬ 16 ≤ (sOne.getReg .a).toNat + (sOne.read4 sOne.eaHl).toNat + sOne.cy.toNat ∧
    sBelow.romByte sBelow.pc.toNat = some 0xAB := by decide

/-- `register_increment_decrement`. -/
theorem test_meets_register_increment_decrement :
    sFull.getReg .a = 15 ∧ sFull.getPair .de = 255 ∧ sFull.getReg .d = 15 ∧ nextOk sFull 1 = true ∧
    sOne.getReg .a = 0 ∧ sOne.getRpP .xa = 0 ∧ nextOk sOne 1 = true := by decide

/-- `memory_increment`. -/
theorem test_meets_memory_increment :
    (isIo sTop.eaHl = false ∧ sTop.read4 sTop.eaHl = 15 ∧ nextOk sTop 3 = true) ∧
    (isIo (sFull.eaMem 0x00) = false ∧ sFull.read4 (sFull.eaMem 0x00) = 15) ∧
    (isIo sBsb.eaHl = true ∧ sBsb.read4 sBsb.eaHl = 15 ∧ nextOk sBsb 1 = true ∧
      isNext ((sBsb.touch sBsb.eaHl).ioWrite4 sBsb.eaHl (sBsb.read4 sBsb.eaHl + 1)) = true) := by decide

/-- `compare_and_skip`: each comparison equal. -/
theorem test_meets_compare_and_skip :
    (sZero.getReg .b == (0 : Nibble)) = true ∧ (sZero.read4 sZero.eaHl == (0 : Nibble)) = true ∧
    (sZero.getReg .a == sZero.read4 sZero.eaHl) = true ∧ (sZero.getPair .xa == sZero.read8 sZero.eaHl8) = true ∧
    (sZero.getReg .a == sZero.getReg .x) = true ∧ (sZero.getPair .xa == sZero.getRpP .hl') = true ∧
    nextOk sZero 1 = true := by decide

/-- `carry_flag_instructions`. -/
theorem test_meets_carry_flag_instructions : ({ sZero with cy := true } : State).Inv ∧ nextOk { sZero with cy := true } 1 = true :=
  ⟨inv_of_ok (by decide), by decide⟩

/-- `bit_writes`: RAM, the peripheral area, and a 1 written to bit 3 of FB2H and FB3H (R42). -/
theorem test_meets_bit_writes :
    isIo (sZero.eaMem 0x7F) = false ∧ isIo (sZero.eaMem 0x80) = true ∧ isIo (fmemAddr false 2) = true ∧
    isIo (fmemAddr false 3) = true ∧ (∀ f ∈ [(2 : Nibble), 3], fmemAddr false f ≠ 0xFB7 ∧ fmemAddr false f ≠ 0xFA8) ∧ isIo (sZero.pmemAddr 0) = true ∧
    isIo (sZero.hmemAddr 0) = false ∧ isIo (sIo.hmemAddr 0) = true := by decide

/-- `bit_tests`: the bit 1 and the bit 0. -/
theorem test_meets_bit_tests :
    sFull.readBit (sFull.eaMem 0) 3 = true ∧ (!sZero.readBit (sZero.eaMem 0) 3) = true ∧
    sBsb.readBit (sBsb.pmemAddr 0) sBsb.pmemBit = true ∧ nextOk sFull 1 = true ∧ nextOk sZero 1 = true ∧
    nextOk sBsb 1 = true := by decide

/-- `test_and_clear`: the bit 0; a RAM bit 1; a peripheral bit 1. -/
theorem test_meets_test_and_clear :
    sZero.readBit (sZero.hmemAddr 0) 3 = false ∧ (sOnL.readBit (sOnL.hmemAddr 0) 3 = true ∧ isIo (sOnL.hmemAddr 0) = false ∧
      nextOk sOnL 1 = true) ∧
    (sBsb.readBit (sBsb.pmemAddr 0) sBsb.pmemBit = true ∧ isIo (sBsb.pmemAddr 0) = true ∧ nextOk sBsb 1 = true) ∧
    (sBsb.readBit (sBsb.hmemAddr 0) 0 = true ∧ isIo (sBsb.hmemAddr 0) = true) := by decide

/-- `enable_and_disable`: a bit write of FB2H bit 3 that goes through. -/
theorem test_meets_enable_and_disable : isNext (sZero.ioWriteBit 0xFB2 3 true) = true := by decide

/-- `halt_and_stop`: on the main and on the subsystem clock; PCC bits 3, 2 equal and each alone. -/
theorem test_meets_halt_and_stop : (sZero.clk.scc0 = false ∧ sZero.clk.phi.sub = false) ∧
    ({ sZero with clk := { sZero.clk with scc0 := true } } : State).clk.scc0 = true ∧
    (0xF : Nibble).getLsbD 3 = (0xF : Nibble).getLsbD 2 ∧ ((7 : Nibble).getLsbD 3 = false ∧ (7 : Nibble).getLsbD 2 = true) ∧
    (0xB : Nibble).getLsbD 3 = true ∧ (0xB : Nibble).getLsbD 2 = false := by decide

/-- `branches`, `calls_in_mk_one_mode`, `calls_in_mk_two_mode`: both settings of SBS.3. -/
theorem test_meets_branches_and_calls : (sZero.Inv ∧ sZero.sbs.getLsbD 3 = true) ∧
    (({ sZero with sbs := 0 } : State).Inv ∧ ({ sZero with sbs := 0 } : State).sbs.getLsbD 3 = false) :=
  ⟨⟨inv_of_ok (by decide), by decide⟩, inv_of_ok (by decide), by decide⟩

/-- `returns`: an instruction stands at the address that RETS restores, in both modes. -/
theorem test_meets_returns : nextOk { sZero with pc := 0 } 1 = true ∧
    sZero.truncPc ((sZero.stk 1).extractLsb' 0 2 ++ sZero.stk 0 ++ sZero.stk 3 ++ sZero.stk 2).toNat = 0 := by decide

/-- `return_undoes_call`. -/
theorem test_meets_return_undoes_call : sZero.Inv ∧ sZero.sbs.getLsbD 1 = false ∧
    ∃ t u, exec (.call 0x1FFF) sZero = .next t ∧ exec .ret t = .next u :=
  ⟨inv_of_ok (by decide), by decide, _, _, rfl, rfl⟩

/-- R42, R98, U7: MOV1 and SET1 cannot enter STOP or HALT mode through FB3H (source: the rules' words). -/
theorem test_fb3_bit_writes_discarded : sZero.ioWriteBit 0xFB3 3 true = .next sZero ∧ sZero.ioWriteBit 0xFB3 2 true = .next sZero :=
  ⟨rfl, rfl⟩

/-- A table entry at 0020H, the entry of GETI with table field 0. -/
def sEntry (e0 e1 : Byte) : State := st false 0 [] [(0x20, e0), (0x21, e1)]

/-- `geti_runs_its_entry`: the four kinds of entry, and the last table address 7EH. -/
theorem test_meets_geti_runs_its_entry :
    ((sEntry 0x3F 0xFF).Inv ∧ (sEntry 0x3F 0xFF).romByte 0x20 = some 0x3F ∧ (sEntry 0x3F 0xFF).romByte 0x21 = some 0xFF ∧
      (0x3F : Byte).extractLsb' 6 2 = 0#2) ∧
    ((sEntry 0x7F 0xFF).Inv ∧ (0x7F : Byte).extractLsb' 6 2 = 1#2) ∧
    ((sEntry 0x89 0x12).Inv ∧ decode [0x89, 0x12] = .ok (.movXaImm 0x12, []) ∧ lengthOf 0x89 = some 2 ∧
      (0x89 : Byte).extractLsb' 4 4 ≠ 4#4 ∧ (0x89 : Byte).extractLsb' 4 4 ≠ 5#4) ∧
    ((sEntry 0xE1 0xC2).Inv ∧ allowedPair 0xE1 0xC2 = true ∧ decode [0xE1, 0xC2] = .ok (.movAHl, [0xC2]) ∧
      decode [0xC2] = .ok (.incsReg .l, [])) ∧
    (lengthOf 0xFF = none ∧ lengthOf 0xAB = some 3 ∧ (lengthOf 0xE8 = some 1 ∧ allowedPair 0xE8 0xC6 = false) ∧
      lengthOf 0x99 = some 2 ∧ decode [0x99, 0x04] = .ok (.brPcde, [])) ∧
    0x40 + 2 * (31 : BitVec 5).toNat = 0x7E :=
  ⟨⟨inv_of_ok (by decide), by decide, by decide, by decide⟩, ⟨inv_of_ok (by decide), by decide⟩,
    ⟨inv_of_ok (by decide), rfl, by decide, by decide, by decide⟩, ⟨inv_of_ok (by decide), by decide, rfl, rfl⟩,
    ⟨by decide, by decide, by decide, by decide, rfl⟩, by decide⟩

/-- The μPD750066, whose ROM ends before its program counter does, with PC at the first address beyond. -/
def sShort : State := { sFull with chip := { sFull.chip with part := .upd750066 }, pc := 0x1800 }
/-- The same part and address, HL = C0H with MBS = 15, BSB0 = 15. -/
def sBsbShort : State := { sBsb with chip := sShort.chip, pc := 0x1800 }

/-- `named_stops`: a table reference, a skip, the fetch at the first address beyond and of three bytes across the end; an
unassigned byte to skip; INCS and XCH on a peripheral register there. -/
theorem test_meets_named_stops : sZero.sbs.getLsbD 3 = true ∧ sShort.Inv ∧
    sShort.romByte (sShort.getPair .bc ++ sShort.getPair .xa).toNat = none ∧
    (sShort.getReg .a = 15 ∧ sShort.romByte sShort.pc.toNat = none) ∧
    ((st false 0 [(0, 15)] [(0x100, 0xFF)]).getReg .a = 15 ∧ (st false 0 [(0, 15)] [(0x100, 0xFF)]).romByte 0x100 = some 0xFF ∧
      lengthOf 0xFF = none) ∧
    (isIo sBsbShort.eaHl = true ∧ sBsbShort.read4 sBsbShort.eaHl = 15 ∧ sBsbShort.romByte sBsbShort.pc.toNat = none ∧
      isNext ((sBsbShort.touch sBsbShort.eaHl).ioWrite4 sBsbShort.eaHl (15 + 1)) = true ∧ sBsbShort.getReg .l = 0 ∧
      isNext ((sBsbShort.touch sBsbShort.eaHl).ioWrite4 sBsbShort.eaHl (sBsbShort.getReg .a)) = true) ∧
    (sShort.sample = sShort ∧ sShort.pins.resetAsserted = false ∧ sShort.resetReq = false ∧ sShort.standby = .run ∧
      sShort.phiRuns = true ∧ sShort.accepted = none) ∧
    (let s : State := { sShort with pc := 0x17FE, rom := [(0x17FE, 0xAB)] }
     s.romByte 0x17FE = some 0xAB ∧ 2 < (lengthOf 0xAB).getD 1 ∧ s.romByte (0x17FE + 2) = none) :=
  ⟨by decide, inv_of_ok (by decide), by decide⟩

/-- `step_runs_decoded_instruction`: a three-byte instruction, and an unassigned byte. -/
theorem test_meets_step_runs_decoded_instruction :
    (let q := (st false 0 [] [(0x100, 0xAB), (0x101, 0x41), (0x102, 0x23)]).sample
     q.pins.resetAsserted = false ∧ q.resetReq = false ∧ q.standby = .run ∧ q.phiRuns = true ∧ q.accepted = none ∧
      (lengthOf 0xAB).getD 1 = [(0x41 : Byte), 0x23].length + 1 ∧ q.romByte (q.pc.toNat + 0) = some 0xAB ∧
      q.romByte (q.pc.toNat + 1) = some 0x41 ∧ q.romByte (q.pc.toNat + 2) = some 0x23) ∧
    (lengthOf 0xFF).getD 1 = ([] : List Byte).length + 1 := by decide

/-- `invariant_kept_by_step`, `program_memory_and_banks_kept`, `carry_written_only_by`: an instruction that answers a next state. -/
theorem test_meets_every_step :
    (∃ t, step sFull = .next t) ∧ (∃ t, exec (.incsReg .a) sFull = .next t) ∧ ¬ mayWriteCy (.incsReg .a) ∧
    ∃ t, exec .nop { sFull with bt := { sFull.bt with wdtm := true } } = .next t :=
  ⟨next_of_isNext (by decide), next_of_isNext (by decide), by simp [mayWriteCy], next_of_isNext (by decide)⟩

/-- INT0 and INT1 requested, seen and enabled: VRQ2 and VRQ3. -/
def sRequest : State :=
  let q : Flags := { Flags.zero with int0 := true, int1 := true }
  { sZero with ints := { Interrupts.reset with ime := true, irq := q, ie := q, visible := q } }

/-- `interrupt_acceptance`: of two requests the one with the smaller number. -/
theorem test_meets_interrupt_acceptance : sRequest.sample = sRequest ∧ sRequest.pins.resetAsserted = false ∧
    sRequest.resetReq = false ∧ sRequest.standby = .run ∧ sRequest.phiRuns = true ∧ sRequest.accepted = some 2 := by decide

/-- `interrupt_entry`: the vectors of the six interrupts are in the ROM. -/
theorem test_meets_interrupt_entry : sRequest.Inv ∧ ∀ n ∈ [1, 2, 3, 4, 5, 6], sRequest.romByte (2 * n) = some 0x60 ∧
    sRequest.romByte (2 * n + 1) = some 0x60 :=
  ⟨inv_of_ok (by decide), by decide⟩

/-- `reti_undoes_interrupt_entry`. -/
theorem test_meets_reti_undoes_interrupt_entry : sRequest.Inv ∧ sRequest.sbs.getLsbD 1 = false ∧
    ∃ t u, enterInterrupt 2 sRequest = .next t ∧ exec .reti t = .next u :=
  ⟨inv_of_ok (by decide), by decide, _, _, rfl, rfl⟩

/-- `edges_set_requests`: INT0 with and without the noise eliminator, one sample and two at a new level. -/
theorem test_meets_edges_set_requests :
    (4 : Nibble).getLsbD 2 = true ∧ sZero.ints.im0.getLsbD 2 = false ∧ sZero.standby = .run ∧
    sZero.phiRuns = true ∧ sZero.ints.im0.getLsbD 3 = false ∧ ({ sZero with pins := { sZero.pins with p1 := 1 } } : State).pins.p1.getLsbD 0 ≠
      sZero.edges.nfOut ∧ sZero.edges.nfCount + 1 < 2 ∧ 2 ≤ sZero.edges.nfCount + 2 := by decide

/-- `reset_operation_and_vector`: the pin, and still the pin; the watchdog; a standby mode; /RESET just risen; the last
quantum of the wait. -/
theorem test_meets_reset_operation_and_vector :
    (let s : State := { sZero with pins := { sZero.pins with resetAsserted := true } }
     s.sample.pins.resetAsserted = true ∧ s.sample.standby ≠ .resetHeld ∧
      ({ s with standby := .resetHeld } : State).sample.standby = .resetHeld) ∧
    ({ sZero with resetReq := true, standby := .halt } : State).sample.resetReq = true ∧
    ({ sZero with standby := .resetHeld } : State).sample.standby = .resetHeld ∧
    (let s : State := { sZero with standby := .resetWait 64 }
     s.sample.pins.resetAsserted = false ∧ s.sample.resetReq = false ∧ s.sample.standby = .resetWait 64 ∧
      64 ≤ (s.sample.elapsed 1).fx ∧ (s.sample.elapsed 1).fx < 65 ∧ s.romByte 0 = some 0x60 ∧ s.romByte 1 = some 0x60) := by
  decide

/-- `standby_release`: a vectored request, and a test flag, with IME = 0; no request; a watchdog overflow;
no CPU clock. -/
theorem test_meets_standby_release :
    (let s : State := { sRequest with standby := .halt, ints := { sRequest.ints with ime := false } }
     s.sample.standby = .halt ∧ s.sample.resetReq = false ∧ s.sample.pins.resetAsserted = false ∧
      s.sample.ints.irq.int0 = true ∧ s.sample.ints.ie.int0 = true) ∧
    (let w : Flags := { Flags.zero with w := true }
     let s : State := { sZero with standby := .stop, ints := { sZero.ints with irq := w, ie := w } }
     s.sample.standby = .stop ∧ s.sample.ints.irq.w = true ∧ s.sample.ints.ie.w = true) ∧
    (let s : State := { sZero with standby := .halt }
     s.sample.standby = .halt ∧ s.sample.release = false ∧ (s.sample.quantum 1).release = false) ∧
    (let s : State := { sRequest with standby := .halt, ints := { sRequest.ints with irq := Flags.zero },
                                      bt := { sZero.bt with wdtm := true, count := 255 }, clk := { sZero.clk with div := 4095 } }
     s.sample.resetReq = false ∧ s.sample.release = false ∧ (s.sample.quantum 1).resetReq = true) ∧
    (let s : State := { sZero with pins := { sZero.pins with fx := false } }
     s.sample.standby = .run ∧ s.sample.phiRuns = false ∧ s.sample.release = false) := by decide

/-- `interval_and_watch_timers`: BT just short of an overflow, and just there; in the wait after STOP; the watch timer on
and off. -/
theorem test_meets_interval_and_watch_timers :
    (let s : State := { sZero with bt := { sZero.bt with count := 255 }, clk := { sZero.clk with div := 4095 } }
     s.bt.count.toNat + divTicks s.clk.div 0 s.bt.tap < 256 ∧ 256 ≤ s.bt.count.toNat + divTicks s.clk.div 1 s.bt.tap ∧
      s.standby ≠ .wait ∧ ({ s with standby := .wait } : State).standby = .wait) ∧
    sZero.watch.wm.getLsbD 2 = false ∧ ({ sZero.watch with wm := 4 } : WatchTimer).wm.getLsbD 2 = true := by decide

/-- `timers_match_every_period`: modulo 1: one pulse counts, two match; in 16-bit mode modulo 0100H: 257 pulses. -/
theorem test_meets_timers_match_every_period :
    (let s : State := { sZero with timer0 := { sZero.timer0 with cp := 3, run := true, modulo := 1 } }
     s.timer0.run = true ∧ s.timer0.count = 0 ∧ s.timer0.mode = 0 ∧ s.pulses0 ⟨1, 4, 0⟩ PinEdges.none = 1 ∧
      1 ≤ s.timer0.modulo.toNat ∧ s.pulses0 ⟨1, 8, 0⟩ PinEdges.none = s.timer0.modulo.toNat + 1) ∧
    (let s : State := { sZero with timer0 := { sZero.timer0 with cp := 3, run := true, mode := 2, modulo := 0 },
                                   timer1 := { sZero.timer1 with modulo := 1 } }
     s.timer0.run = true ∧ s.timer0.count = 0 ∧ s.timer0.mode = 2 ∧ s.timer1.count = 0 ∧
      s.pulses0 ⟨1, 1028, 0⟩ PinEdges.none = s.timer1.modulo.toNat * 256 + s.timer0.modulo.toNat + 1) ∧
    (let s : State := { sZero with timer1 := { sZero.timer1 with cp := 3, run := true, modulo := 1 } }
     s.timer1.run = true ∧ s.timer1.count = 0 ∧ s.timer0.mode ≠ 2 ∧ s.timer1.cp ≠ 2 ∧
      s.pulses1 ⟨1, 8, 0⟩ PinEdges.none 0 = s.timer1.modulo.toNat + 1) ∧
    (let s : State := { sZero with timer0 := { sZero.timer0 with cp := 3, run := true, modulo := 1, count := 254 },
                                   timer1 := { sZero.timer1 with cp := 2, run := true } }
     s.pulses0 ⟨1, 8, 0⟩ PinEdges.none = 2 ∧ s.timer0.modulo < s.timer0.count ∧ 256 ≤ s.timer0.count.toNat + 2 ∧
      s.timer0.count.toNat + 2 ≤ 256 + s.timer0.modulo.toNat) ∧
    (isNext (sZero.ioWrite8 0xFA0 0x0C) = true ∧ isNext (sZero.ioWriteBit 0xFA0 3 true) = true ∧
      isNext (sZero.ioWrite8 0xFA8 0x0C) = true ∧ isNext (sZero.ioWriteBit 0xFA8 3 true) = true ∧
      sZero.coincidence.1 = false ∧ sZero.coincidence.2 = false) := by decide

/-- `serial_transfer`: CSIM = 83H (3-wire mode) and 9CH (2-wire mode on SB1), a transfer begun, seven and eight clocks. -/
theorem test_meets_serial_transfer :
    (let u : Serial := { sZero.serial with csim := 0x83, sio := 0x5A, running := true }
     u.csim.getLsbD 7 = true ∧ u.csim.getLsbD 3 = false ∧ u.running = true ∧ u.count = 0 ∧
      ({ u with csim := 0x9C } : Serial).csim.getLsbD 3 = true) ∧
    ((0x84 : Byte).getLsbD 3 = false ∧ (0x84 : Byte).getLsbD 2 = true) ∧
    (List.replicate 7 (8 : Nibble)).length < 8 ∧ (List.replicate 8 (8 : Nibble)).length = 8 := by decide

/-- `analog_conversion`: SOC = 1 with ADEN = 1 and with ADEN = 0. -/
theorem test_meets_analog_conversion : (0x88 : Byte).getLsbD 3 = true ∧ (0x08 : Byte).getLsbD 3 = true ∧
    sZero.fxRunning = true := by decide

/-- `port_latches_and_pins`: a write of port 6, a bit write of port 3 in output mode; port 3 with P30 alone in output
mode. -/
theorem test_meets_port_latches_and_pins :
    6 ∈ [2, 3, 4, 5, 6] ∧ isNext (sZero.ioWrite4 (BitVec.ofNat 12 (0xFF0 + 6)) 9) = true ∧
    (let s : State := { sZero with ports := { sZero.ports with pmga := 0x0F } }
     s.portMode 3 = 0xF ∧ isNext (s.ioWriteBit (BitVec.ofNat 12 (0xFF0 + 3)) 3 true) = true) ∧
    (let s : State := { sZero with ports := { sZero.ports with pmga := 0x03 } }
     (s.portMode 3).getLsbD 0 = true ∧ (s.portMode 3).getLsbD 1 = true ∧ (s.portMode 3).getLsbD 2 = false) := by decide

/-- `clock_change_delay`: from fX/64 to fX/4, whatever the free delay is (the main oscillation is stopped, so that the change
stays pending even with delay 0). -/
theorem test_meets_clock_change_delay :
    let s : State := { sZero with clk := { sZero.clk with pcc := 3, scc3 := true } }
    (∃ d, (s.armSwitch sZero).clk.switchIn = some d) ∧ s.clk.target.same sZero.clk.target = false := by
  intro s
  refine ⟨?_, by decide⟩
  unfold State.armSwitch
  rw [if_neg (by decide), if_neg (by decide)]
  generalize Config.clockDelay s.freeCount % (s.clk.phi.maxDelay s.clk.target s.chip + 1) = d
  cases d with
  | zero => exact ⟨0, rfl⟩
  | succ n => exact ⟨n + 1, rfl⟩

/-- `clock_change_delay`: main to subsystem clock; a change in its last cycle and one with a cycle to go. -/
theorem test_meets_clock_change_steps :
    (let s : State := { sZero with clk := { sZero.clk with scc0 := true, switchIn := some 1 } }
     s.clk.phi.sub = false ∧ s.clk.target.sub = true ∧ 0 < s.chip.fxtHz ∧ s.clk.switchIn = some 1 ∧ (0 : Nat) < 1 ∧
      (1 : Nat) ≤ 1 ∧ s.fxtRunning = true) ∧
    sZero.fxPresent = true := by decide

/-- `output_pins`: ports in output mode; a tap of the divider just high, and a quantum that reaches its start and its end. -/
theorem test_meets_output_pins :
    (let s : State := { sZero with ports := { sZero.ports with pm4 := true, pmga := 0xFF } }
     (s.portMode 4).getLsbD 0 = true ∧ (s.portMode 5).getLsbD 0 = false ∧ (s.portMode 3).getLsbD 0 = true) ∧
    (let c : ClockGen := { sZero.clk with clom := 9, pcl := some 1, div := 2 }
     c.clom.getLsbD 3 = true ∧ c.clom.extractLsb' 0 2 = 1 ∧ 4 ^ (1 : BitVec 2).toNat / 2 ≤ c.div.toNat % 4 ∧
      (c.div.toNat + 2) % 4 = 0) ∧
    (0x97 : Byte).getLsbD 7 = true ∧ (0x97 : Byte).getLsbD 5 = false ∧ Standby.halt ≠ .run ∧
    ((0xB0 : Byte).getLsbD 7 = true ∧ (0xB0 : Byte).extractLsb' 4 2 = 3 ∧ (0xB0 : Byte).getLsbD 0 = false ∧
      (0xB1 : Byte).extractLsb' 4 2 = 3 ∧ (0xB1 : Byte).getLsbD 0 = true ∧
      ({ sZero with clk := { sZero.clk with sos := 1 } } : State).fxtRunning = false ∧ sZero.fxtRunning = true ∧
      sZero.onFx = true ∧ ({ sZero with clk := { sZero.clk with phi := ⟨true, 0⟩ } } : State).onFx = false) ∧
    ({ sZero with pins := { sZero.pins with fx := false } } : State).phiRuns = false := by decide

/-- R541, R543: BUZ with code 11 and WM0 = 1 is fXT: 63 machine cycles of fX/4 at 4.194304 MHz are a little short of two
periods of 32.768 kHz, two machine cycles later the third has begun (source: 128 periods of fX to one of fXT). -/
theorem test_buz_is_fxt :
    let s : State := { sZero with watch := { sZero.watch with wm := 0xB1 }, clk := { sZero.clk with phi := ⟨false, 3⟩ } }
    (s.advance 63 PinEdges.none).buzLevel = true ∧ (s.advance 65 PinEdges.none).buzLevel = false := by decide

/-- `memory_reads_back`: the last RAM word, the first address without RAM, the last RAM pair. -/
theorem test_meets_memory_reads_back :
    isIo 0x1FF = false ∧ isRam 0x1FF = true ∧ isNext (sZero.write4 0x1FF 9) = true ∧
    isIo 0x200 = false ∧ isRam 0x200 = false ∧ isNext (sZero.write4 0x200 9) = true ∧
    (0x1FE : DAddr).getLsbD 0 = false ∧ isRam 0x1FE = true ∧ isNext (sZero.write8 0x1FE 0x95) = true ∧
    isIo 0xF7F = false ∧ isIo 0xF80 = true := by decide

/-- `peripheral_writes`: next to each excluded address and value. -/
theorem test_meets_peripheral_writes :
    (0xF84 : DAddr) ≠ 0xF85 ∧ ((0xF86 : DAddr) ≠ 0xFB3 ∨ (15 : Nibble).getLsbD 3 = false) ∧
    ((0xFB3 : DAddr) ≠ 0xFB3 ∨ (7 : Nibble).getLsbD 3 = false) ∧
    ((0xFA6 : DAddr) ≠ 0xFA0 ∧ (0xFA6 : DAddr) ≠ 0xFA8 ∧ (0xFA6 : DAddr) ≠ 0xFE0) ∧
    (0x0C : Byte) &&& 3 = 0 ∧ ((0x0E : Byte) &&& 3 = 2 ∧
      ({ sZero with timer1 := { sZero.timer1 with cp := 2, mode := 2 } } : State).timer1.read false = 0x22) ∧
    sZero.timer0.mode ≠ 2 ∧ sZero.timer1.mode = 0 ∧
 ((0xFB2 : DAddr) ≠ 0xFB3 ∧ (0xFB2 : DAddr) ≠ 0xFB7) ∧
    ({ sZero with clk := { sZero.clk with phi := ⟨true, 0⟩ } } : State).clk.phi.sub = true := by decide

/-- `registers_read_back`: the writes go through. -/
theorem test_meets_registers_read_back : isNext (sZero.ioWrite4 0xF84 0xF) = true ∧ isNext (sZero.ioWrite4 0xFD0 0xF) = true ∧
    isNext (sZero.ioWrite8 0xF80 0xFF) = true ∧ isNext (sZero.ioWrite8 0xFE8 0xFF) = true := by decide

end Sys2Proof.Tests
end

section
/-! Where program memory ends and what stops there: the peripheral writes, which leave both memories and PC alone; the skip;
the fetch; and the statement `named_stops` on the stops by name (20_memory.md R82; D4, D8, U9). -/

namespace Sys2Proof.Machine

/-! ### The code that a state runs, and what leaves it alone -/

/-- `t` reads program memory as `s` does, and its PC is the same. -/
structure SameCode (s t : State) : Prop where
  chip : t.chip = s.chip
  rom : t.rom = s.rom
  pc : t.pc = s.pc

/-- Data memory is the same too. -/
structure SameMemory (s t : State) : Prop extends SameCode s t where
  ram : t.ram = s.ram

theorem SameCode.refl (s : State) : SameCode s s := ⟨rfl, rfl, rfl⟩

theorem SameCode.trans {s t u : State} (h : SameCode s t) (k : SameCode t u) : SameCode s u :=
  ⟨k.chip.trans h.chip, k.rom.trans h.rom, k.pc.trans h.pc⟩

theorem SameCode.touch {s t : State} (h : SameCode s t) (a : DAddr) : SameCode s (t.touch a) := ⟨h.chip, h.rom, h.pc⟩

theorem SameCode.setCy {s t : State} (h : SameCode s t) (c : Bool) : SameCode s (t.setCy c) := ⟨h.chip, h.rom, h.pc⟩

theorem SameCode.ramWrite {s t : State} (h : SameCode s t) (a : DAddr) (v : Nibble) : SameCode s (t.ramWrite a v) :=
  h.trans ⟨by simp, by simp, by simp⟩

theorem SameCode.setReg {s t : State} (h : SameCode s t) (r : Reg) (v : Nibble) : SameCode s (t.setReg r v) :=
  h.ramWrite _ _

theorem SameCode.setRegIn {s t : State} (h : SameCode s t) (b : BitVec 2) (r : Reg) (v : Nibble) :
    SameCode s (t.setRegIn b r v) :=
  h.ramWrite _ _

theorem SameCode.setPair {s t : State} (h : SameCode s t) (p : Rp) (v : Byte) : SameCode s (t.setPair p v) :=
  (h.ramWrite _ _).ramWrite _ _

theorem SameCode.setRpP {s t : State} (h : SameCode s t) (p : RpP) (v : Byte) : SameCode s (t.setRpP p v) :=
  (h.ramWrite _ _).ramWrite _ _

/-! ### Peripheral writes -/

theorem SameMemory.refl (s : State) : SameMemory s s := ⟨.refl s, rfl⟩

theorem SameMemory.ite {s t u : State} (c : Prop) [Decidable c] (h : SameMemory s t) (k : SameMemory s u) :
    SameMemory s (if c then t else u) := by
  split
  · exact h
  · exact k

theorem setLatch_sameMemory (s : State) (n : Nat) (v : Nibble) : SameMemory s (s.setLatch n v) := by
  unfold State.setLatch
  split <;> exact ⟨⟨rfl, rfl, rfl⟩, rfl⟩

theorem writeFlags_sameMemory (s : State) (a : DAddr) (v : Nibble) : SameMemory s (s.writeFlags a v) := by
  unfold State.writeFlags
  dsimp only
  split <;> exact ⟨⟨rfl, rfl, rfl⟩, rfl⟩

theorem writeBtm_sameMemory {s u : State} {v : Nibble} (h : s.writeBtm v = .next u) : SameMemory s u := by
  unfold State.writeBtm at h
  dsimp only at h
  split at h
  · cases h
    exact SameMemory.ite _ ⟨⟨rfl, rfl, rfl⟩, rfl⟩ ⟨⟨rfl, rfl, rfl⟩, rfl⟩
  · cases h

theorem enterStop_sameMemory {s u : State} (h : s.enterStop = .next u) : SameMemory s u := by
  unfold State.enterStop at h
  split at h
  · cases h
  · cases h
    exact ⟨⟨rfl, rfl, rfl⟩, rfl⟩

theorem writePcc_sameMemory {s u : State} {v : Nibble} (h : s.writePcc v = .next u) : SameMemory s u := by
  unfold State.writePcc at h
  dsimp only at h
  split at h
  · have k := enterStop_sameMemory h
    exact ⟨⟨k.chip, k.rom, k.pc⟩, k.ram⟩
  · cases h
    exact SameMemory.ite _ ⟨⟨rfl, rfl, rfl⟩, rfl⟩ ⟨⟨rfl, rfl, rfl⟩, rfl⟩

/-- A 4-bit write of a peripheral register leaves both memories and PC alone. -/
theorem ioWrite4_sameMemory {s u : State} {a : DAddr} {v : Nibble} (h : s.ioWrite4 a v = .next u) : SameMemory s u := by
  unfold State.ioWrite4 at h
  split at h
  case h_2 => exact writeBtm_sameMemory h
  case h_5 => exact writePcc_sameMemory h
  -- FB8H to FBFH: the request and enable flags
  case h_9 | h_10 | h_11 | h_12 | h_13 | h_14 => cases h; exact writeFlags_sameMemory _ _ _
  all_goals cases h; exact ⟨⟨rfl, rfl, rfl⟩, rfl⟩

/-- A 0 written to one bit of a peripheral register is never refused, and leaves both memories and PC alone. -/
theorem ioWriteBit_false (s : State) (a : DAddr) (b : BitVec 2) :
    ∃ u, s.ioWriteBit a b false = .next u ∧ SameMemory s u := by
  unfold State.ioWriteBit
  split
  -- FA8H and FB7H: only a 1 to bit 3 can be refused
  case h_5 => exact ⟨s, by simp, .refl s⟩
  case h_8 =>
    split
    · exact ⟨_, rfl, ⟨⟨rfl, rfl, rfl⟩, rfl⟩⟩
    · exact ⟨_, rfl, .ite _ ⟨⟨rfl, rfl, rfl⟩, rfl⟩ (.refl s)⟩
  case h_7 | h_15 | h_16 | h_17 | h_18 | h_24 | h_25 | h_26 | h_27 | h_28 | h_29 =>
    exact ⟨_, rfl, ⟨⟨rfl, rfl, rfl⟩, rfl⟩⟩
  case h_9 | h_10 | h_11 | h_12 | h_13 | h_14 => exact ⟨_, rfl, writeFlags_sameMemory _ _ _⟩
  case h_22 => exact ⟨_, rfl, .ite _ ⟨⟨rfl, rfl, rfl⟩, rfl⟩ (.ite _ ⟨⟨rfl, rfl, rfl⟩, rfl⟩ (.refl s))⟩
  all_goals exact ⟨_, rfl, .ite _ ⟨⟨rfl, rfl, rfl⟩, rfl⟩ (.refl s)⟩

/-- What a 4-bit write can do to both memories and PC: outside the peripheral area it writes the word, in it none. -/
theorem write4_next {s u : State} {a : DAddr} {v : Nibble} (h : s.write4 a v = .next u) :
    SameCode s u ∧ (Memory.wf ramDefault ramSize s.ram = true → Wrote s u (if isIo a then [] else ramWords a v)) := by
  cases ha : isIo a with
  | false =>
    rw [State.write4_outside _ _ _ ha] at h
    cases h
    exact ⟨(SameCode.refl s).ramWrite a v, fun hm => ((Wrote.refl s hm).ramWrite a v).cast (List.append_nil _)⟩
  | true =>
    rw [State.write4_io _ _ _ ha] at h
    have k := ioWrite4_sameMemory h
    exact ⟨k.toSameCode, fun hm => (Wrote.refl s hm).congr k.ram⟩

/-- A bit can be cleared anywhere; both program memory and PC stay. -/
theorem writeBit_false (s : State) (a : DAddr) (b : BitVec 2) :
    ∃ u, s.writeBit a b false = .next u ∧ SameCode s u := by
  cases ha : isIo a with
  | false => exact ⟨_, by rw [State.writeBit, if_neg (by simp [ha])], (SameCode.refl s).ramWrite a _⟩
  | true =>
    obtain ⟨u, hu, k⟩ := ioWriteBit_false s a b
    exact ⟨u, by rw [State.writeBit, if_pos ha, hu], k.toSameCode⟩

/-! ### The end of program memory (R82) -/

/-- Only the μPD750066 has addresses beyond its ROM, from 1800H on. -/
theorem romByte_none {s : State} {a : Nat} (h : s.romByte a = none) :
    s.chip.part = .upd750066 ∧ s.romAddr a = a % 0x2000 ∧ 0x1800 ≤ s.romAddr a := by
  simp only [State.romByte, ite_eq_right_iff, reduceCtorEq, imp_false, Nat.not_lt] at h
  simp only [State.romAddr]
  cases hp : s.chip.part <;> simp only [hp, Part.pcWidth, Part.romSize] at h ⊢
  case upd750066 => exact ⟨trivial, rfl, h⟩
  all_goals omega

/-- The entries of GETI and the vectors are in the ROM of every part. -/
theorem romByte_tables (s : State) {a : Nat} (ha : a < 0x80) : s.romByte a ≠ none := by
  intro h
  obtain ⟨-, e, k⟩ := romByte_none h
  omega

/-! ### Stops of the skip (R128) -/

/-- `r` is the answer of a skip at `pc` that cannot be made: a fault beyond the ROM, a refusal at an unassigned byte. -/
def SkipStops (s : State) (pc : BitVec 14) (r : Result) : Prop :=
  (s.romByte pc.toNat = none → r = .fault (.beyondRom (s.romAddr pc.toNat))) ∧
  (∀ x, s.romByte pc.toNat = some x → lengthOf x = none → r = .refused (.unassignedSkip x))

theorem skipNext_stops (s : State) : SkipStops s s.pc s.skipNext := by
  unfold SkipStops State.skipNext
  exact ⟨fun h => by simp only [h], fun x h hx => by simp only [h, hx]⟩

theorem SkipStops.congr {s x : State} (hc : x.chip = s.chip) (hr : x.rom = s.rom) {pc : BitVec 14} {r : Result}
    (h : SkipStops x pc r) : SkipStops s pc r := by
  simpa only [SkipStops, State.romByte, State.romAddr, hc, hr] using h

/-- The end of an instruction that skips, from a state with the program of `s`. -/
theorem finishSkip_stops {s x : State} (h : SameCode s x) (c : Nat) : SkipStops s s.pc (x.finishSkip c true) :=
  h.pc ▸ SkipStops.congr h.chip h.rom (skipNext_stops (x.ended c))

/-- `i` skips at `pc` if `c` holds, and stops there where the skip does. -/
def SkipsAt (s : State) (i : Instr) (pc : BitVec 14) (c : Bool) : Prop := c = true → SkipStops s pc (exec i s)

/-- A meaning that ends in a conditional skip. -/
theorem skipsAt_of_finishSkip {s x : State} {i : Instr} {n : Nat} {c k : Bool} (he : exec i s = x.finishSkip n k)
    (hx : SameCode s x) (hk : k = c) : SkipsAt s i s.pc c := by
  rintro rfl
  rw [he, hk]
  exact finishSkip_stops hx n

/-- RETS skips at the address that it restores (R356). -/
theorem rets_skipsAt (s : State) : SkipsAt s .rets (s.truncPc s.frameReturn) true := by
  have hc : s.restoreFrame.chip = s.chip := by unfold State.restoreFrame; split <;> rfl
  have hr : s.restoreFrame.rom = s.rom := by unfold State.restoreFrame; split <;> rfl
  have hp : s.restoreFrame.pc = s.truncPc s.frameReturn := by unfold State.restoreFrame; split <;> rfl
  exact fun _ => hp ▸ SkipStops.congr hc hr (finishSkip_stops (.refl _) 3)

theorem succ_eq_zero_iff_byte (b : Byte) : (b + 1 == 0) = (b == 255) := by
  rw [Bool.eq_iff_iff, beq_iff_eq, beq_iff_eq]
  bv_omega

theorem pred_eq_max_iff_byte (b : Byte) : (b - 1 == 0xFF) = (b == 0) := by
  rw [Bool.eq_iff_iff, beq_iff_eq, beq_iff_eq]
  bv_omega

/-- SKTCLR: the bit is cleared, then the skip (R292). -/
theorem testAndClear_skipsAt {s : State} {i : Instr} {a : DAddr} {b : BitVec 2} (he : exec i s = testAndClear a b s) :
    SkipsAt s i s.pc (s.readBit a b) := by
  intro hb
  obtain ⟨u, hu, k⟩ := writeBit_false (s.touch a) a b
  rw [he, testAndClear, if_pos hb, hu]
  exact finishSkip_stops (((SameCode.refl s).touch a).trans k) 2

/-- INCS on a word: once the write has gone through, the skip (R240, R241). -/
theorem incsAt_stops {s u : State} {a : DAddr} (hu : (s.touch a).write4 a (s.read4 a + 1) = .next u)
    (hv : (s.read4 a == 15) = true) : SkipStops s s.pc (incsAt a s) := by
  have e : incsAt a s = u.finishSkip 2 (s.read4 a + 1 == 0) := by
    simp only [incsAt, hu, andThen_next]
  rw [e, succ_eq_zero_iff, hv]
  exact finishSkip_stops (((SameCode.refl s).touch a).trans (write4_next hu).1) 2

theorem incsAt_skipsAt {s : State} {i : Instr} {a : DAddr} (he : exec i s = incsAt a s) :
    SkipsAt s i s.pc (!isIo a && s.read4 a == 15) := by
  intro hc
  simp only [Bool.and_eq_true, Bool.not_eq_true'] at hc
  rw [he]
  exact incsAt_stops (State.write4_outside _ _ _ hc.1) hc.2

/-! ### Stops after L was stepped (R87) -/

theorem stepUpL_stops {s x : State} {b : BitVec 2} (h : SameCode s x) (hl : (x.ramRead (regAddr b .l) == 15) = true) :
    SkipStops s s.pc (stepUpL b x) := by
  rw [← succ_eq_zero_iff] at hl
  rw [stepUpL, hl]
  exact finishSkip_stops (h.setRegIn b .l _) 2

theorem stepDownL_stops {s x : State} {b : BitVec 2} (h : SameCode s x) (hl : (x.ramRead (regAddr b .l) == 0) = true) :
    SkipStops s s.pc (stepDownL b x) := by
  rw [← pred_eq_max_iff] at hl
  rw [stepDownL, hl]
  exact finishSkip_stops (h.setRegIn b .l _) 2

/-- A load of A leaves L as it is. -/
theorem ramRead_l_setReg_a {s : State} (h : Memory.wf ramDefault ramSize s.ram = true) (v : Nibble) (a : DAddr) :
    ((s.touch a).setReg .a v).ramRead (regAddr s.regBank .l) = s.getReg .l := by
  rw [(((Wrote.refl s h).touch a).setReg rfl .a v).words, State.regWord, wordAfter_cons, if_neg (by simp [regAddr_inj])]
  rfl

theorem isIo_regAddr (b : BitVec 2) (r : Reg) : isIo (regAddr b r) = false := by
  revert b
  cases r <;> decide

/-- The exchange of A with a word, once the write has gone through: PC stays, and L is changed only where it is itself that
word. -/
theorem swapA_next {s u : State} {a : DAddr} (h : Memory.wf ramDefault ramSize s.ram = true)
    (hu : (s.touch a).write4 a (s.getReg .a) = .next u) :
    ∃ t, swapA a s = .next t ∧ SameCode s t ∧
      t.ramRead (regAddr s.regBank .l) = if a = regAddr s.regBank .l then s.getReg .a else s.getReg .l := by
  obtain ⟨hc, hw⟩ := write4_next hu
  refine ⟨u.setRegIn s.regBank .a (s.read4 a), by rw [swapA, hu, andThen_next],
    (((SameCode.refl s).touch a).trans hc).setRegIn _ _ _, ?_⟩
  unfold State.setRegIn
  rw [((hw h).reg s.regBank .a _).words, wordAfter_cons, if_neg (by simp [regAddr_inj])]
  by_cases ha : a = regAddr s.regBank .l
  · subst ha
    simp [isIo_regAddr, ramWords, isRam_regAddr, wordAfter_cons]
  · have hw' : ∀ ws ∈ [[], [(a, s.getReg .a)]], wordAfter ws (s.touch a) (regAddr s.regBank .l) = s.getReg .l := by
      simp [wordAfter_cons, Ne.symm ha]
      rfl
    rw [if_neg ha]
    cases isIo a <;> cases hr : isRam a <;> exact hw' _ (by simp [ramWords, hr])

/-- XCH A,@HL+ and XCH A,@HL-: once the write has gone through, the stop of the L step `f`, which skips where L is `v`. -/
theorem exchange_stops {s u : State} {f : State → Result} {v : Nibble} (h : Memory.wf ramDefault ramSize s.ram = true)
    (hf : ∀ t, SameCode s t → (t.ramRead (regAddr s.regBank .l) == v) = true → SkipStops s s.pc (f t))
    (hu : (s.touch s.eaHl).write4 s.eaHl (s.getReg .a) = .next u)
    (hl : ((if s.eaHl = regAddr s.regBank .l then s.getReg .a else s.getReg .l) == v) = true) :
    SkipStops s s.pc (andThen (swapA s.eaHl s) f) := by
  obtain ⟨t, ht, hc, hr⟩ := swapA_next h hu
  rw [ht, andThen_next]
  exact hf t hc (hr ▸ hl)

theorem exchange_skipsAt {s : State} {i : Instr} {f : State → Result} {v : Nibble}
    (h : Memory.wf ramDefault ramSize s.ram = true) (he : exec i s = andThen (swapA s.eaHl s) f)
    (hf : ∀ t, SameCode s t → (t.ramRead (regAddr s.regBank .l) == v) = true → SkipStops s s.pc (f t)) :
    SkipsAt s i s.pc
      (!isIo s.eaHl && (if s.eaHl = regAddr s.regBank .l then s.getReg .a else s.getReg .l) == v) := by
  intro hc
  simp only [Bool.and_eq_true, Bool.not_eq_true'] at hc
  rw [he]
  exact exchange_stops h hf (State.write4_outside _ _ _ hc.1) hc.2

/-- L is no peripheral register, so an exchange with one leaves L as it is. -/
theorem eaHl_ne_l_of_isIo {s : State} (h : isIo s.eaHl = true) : s.eaHl ≠ regAddr s.regBank .l := by
  intro e
  rw [e, isIo_regAddr] at h
  cases h

/-! ### The byte that ADDC A,@HL and SUBC A,@HL look at (R130) -/

theorem finishRadix_stop {s x : State} (h : SameCode s x) (c : Nat) (k : Bool) (hn : s.romByte s.pc.toNat = none) :
    x.finishRadix c k = .fault (.beyondRom (s.romAddr s.pc.toNat)) := by
  have e : x.romByte x.pc.toNat = none := by simpa only [State.romByte, h.chip, h.rom, h.pc] using hn
  rw [State.finishRadix, e]
  simp only [State.romAddr, h.chip, h.pc]

/-! ### Stops of the fetch -/

theorem romBytes_none {s : State} {a n k : Nat} (hk : k < n) (h : s.romByte (a + k) = none) : s.romBytes a n = none := by
  induction n generalizing a k with
  | zero => omega
  | succ n ih =>
    unfold State.romBytes
    cases k with
    | zero => rw [show s.romByte a = none from h]
    | succ k => rw [ih (Nat.lt_of_succ_lt_succ hk) (by rwa [Nat.add_right_comm])]; cases s.romByte a <;> rfl

/-- The address that a fetch reports is one beyond the ROM. -/
theorem firstBeyond_beyond {s : State} {a n k : Nat} (hk : k < n) (h : s.romByte (a + k) = none) :
    ∃ b, s.firstBeyond a n = s.romAddr b ∧ s.romByte b = none := by
  induction n generalizing a k with
  | zero => omega
  | succ n ih =>
    unfold State.firstBeyond
    cases ha : s.romByte a with
    | none => exact ⟨a, rfl, ha⟩
    | some x =>
      cases k with
      | zero => rw [Nat.add_zero, ha] at h; cases h
      | succ k => exact ih (Nat.lt_of_succ_lt_succ hk) (by rwa [Nat.add_right_comm])

theorem fetch_first_beyond {s : State} (h : s.romByte s.pc.toNat = none) :
    s.fetch = .error (.beyondRom (s.romAddr s.pc.toNat)) := by
  simp only [State.fetch, h]

theorem fetch_beyond {s : State} {x : Byte} {k : Nat} (hx : s.romByte s.pc.toNat = some x)
    (hk : k < (lengthOf x).getD 1) (h : s.romByte (s.pc.toNat + k) = none) :
    ∃ a, s.fetch = .error (.beyondRom a) ∧ 0x1800 ≤ a ∧ a < 0x2000 := by
  obtain ⟨b, hb, hn⟩ := firstBeyond_beyond hk h
  obtain ⟨-, he, hl⟩ := romByte_none hn
  exact ⟨s.romAddr b, by simp only [State.fetch, hx, romBytes_none hk h, hb], hl, by omega⟩

/-- In the operating mode, with nothing to accept, a fetch that fails stops the machine. -/
theorem step_fetch_error {o s : State} {f : Fault} (ho : o.sample = s) (hr : s.pins.resetAsserted = false)
    (hq : s.resetReq = false) (hs : s.standby = .run) (hp : s.phiRuns = true) (ha : s.accepted = none)
    (hf : s.fetch = .error f) : step o = .fault f := by
  simp only [step, ho, modeStep, hr, hq, hs, hp, runStep, ha, instrStep, hf, Bool.false_and, Bool.or_self,
    Bool.false_eq_true, if_false, if_true, andThen_fault]

/-! ### The conditions of the skips, as the statement writes them -/

theorem carry_of_addC {w : Nat} (a b : BitVec w) : (addC a b false).2 = decide (2 ^ w ≤ a.toNat + b.toNat) :=
  congrArg Prod.snd (addC_false w a b)

theorem borrow_of_subC {w : Nat} (a b : BitVec w) : (subC a b false).2 = decide (a.toNat < b.toNat) :=
  congrArg Prod.snd (subC_false w a b)

/-- SKT and SKF skip on a bit that is 1 or 0. -/
theorem skipOnBit_skipsAt {s : State} {i : Instr} {a : DAddr} {b : BitVec 2} {v c : Bool}
    (he : exec i s = skipOnBit a b v s) (hc : (s.readBit a b == v) = c) : SkipsAt s i s.pc c :=
  skipsAt_of_finishSkip he ((SameCode.refl s).touch a) hc

/-! ### The statement -/

/-- A property of every triple of a list, entry by entry. -/
theorem forall_triple_mem {α β γ : Type} (P : α → β → γ → Prop) (l : List (α × β × γ)) (h : ∀ e ∈ l, P e.1 e.2.1 e.2.2)
    (a : α) (b : β) (c : γ) (hm : (a, b, c) ∈ l) : P a b c := h _ hm

/-- Settles O37: each clause from the lemma on the operation that stops; the instructions that can skip differ only in the
state that they leave to `finishSkip` and in how their condition is written. -/
theorem namedStops : Obligations.named_stops := by
  unfold Obligations.named_stops
  intro s t r p q n m hi f g d b b1 b2 hInv mem l l' xa rq ret
  have code : SameCode s s := .refl s
  refine ⟨rfl, fun hk => ⟨if_pos hk, if_pos hk⟩, fun a => romByte_none, fun a => romByte_tables s, ?tables, ?skips, ?io,
    ?fetch⟩
  case tables =>
    intro i a hm hn
    simp only [List.mem_cons, Prod.mk.injEq, List.not_mem_nil, or_false] at hm
    rcases hm with ⟨rfl, rfl⟩ | ⟨rfl, rfl⟩ | ⟨rfl, rfl⟩ | ⟨rfl, rfl⟩ | ⟨rfl, rfl⟩ | ⟨rfl, rfl⟩
    · exact tableRead_stop s _ hn
    · exact tableRead_stop s _ hn
    · rw [append_toNat] at hn ⊢
      exact tableRead_stop s _ hn
    · rw [append_toNat] at hn ⊢
      exact tableRead_stop s _ hn
    · exact finishRadix_stop (((code.touch _).setReg .a _).setCy _) 1 _ hn
    · exact finishRadix_stop (((code.touch _).setReg .a _).setCy _) 1 _ hn
  case skips =>
    refine forall_triple_mem (SkipsAt s) _ ?_
    simp only [List.forall_mem_cons]
    exact ⟨rets_skipsAt s,
      -- INCS and DECS (R238 to R243)
      skipsAt_of_finishSkip rfl (code.setReg r _) (succ_eq_zero_iff _),
      skipsAt_of_finishSkip rfl (code.setPair p _) (succ_eq_zero_iff_byte _),
      skipsAt_of_finishSkip rfl (code.setReg r _) (pred_eq_max_iff _),
      skipsAt_of_finishSkip rfl (code.setRpP q _) (pred_eq_max_iff_byte _),
      incsAt_skipsAt rfl, incsAt_skipsAt rfl,
      -- MOV and XCH that step L (R167, R168, R182, R183)
      fun hl => stepUpL_stops ((code.touch _).setReg .a _) (by rwa [ramRead_l_setReg_a hInv.ram]),
      fun hl => stepDownL_stops ((code.touch _).setReg .a _) (by rwa [ramRead_l_setReg_a hInv.ram]),
      exchange_skipsAt hInv.ram rfl (fun _ => stepUpL_stops), exchange_skipsAt hInv.ram rfl (fun _ => stepDownL_stops),
      -- ADDS and SUBS (R210 to R214, R218 to R220)
      skipsAt_of_finishSkip rfl (code.setReg .a _) (congrArg (· && !s.addsNoskip) (carry_of_addC _ n)),
      skipsAt_of_finishSkip rfl ((code.touch _).setReg .a _) (carry_of_addC _ mem),
      skipsAt_of_finishSkip rfl (code.setPair .xa _) (carry_of_addC xa m),
      skipsAt_of_finishSkip rfl (code.setPair .xa _) (carry_of_addC xa rq),
      skipsAt_of_finishSkip rfl (code.setRpP q _) (carry_of_addC rq xa),
      skipsAt_of_finishSkip rfl ((code.touch _).setReg .a _) (borrow_of_subC _ mem),
      skipsAt_of_finishSkip rfl (code.setPair .xa _) (borrow_of_subC xa rq),
      skipsAt_of_finishSkip rfl (code.setRpP q _) (borrow_of_subC rq xa),
      -- SKE (R244 to R249) and SKT CY (R282)
      skipsAt_of_finishSkip rfl code rfl, skipsAt_of_finishSkip rfl (code.touch _) rfl,
      skipsAt_of_finishSkip rfl (code.touch _) rfl, skipsAt_of_finishSkip rfl (code.touch _) rfl,
      skipsAt_of_finishSkip rfl code rfl, skipsAt_of_finishSkip rfl code rfl, skipsAt_of_finishSkip rfl code rfl,
      -- SKT and SKF by operand form (R288 to R291), SKTCLR (R292)
      skipOnBit_skipsAt rfl (beq_true _), skipOnBit_skipsAt rfl (beq_false _),
      skipOnBit_skipsAt rfl (beq_true _), skipOnBit_skipsAt rfl (beq_false _),
      skipOnBit_skipsAt rfl (beq_true _), skipOnBit_skipsAt rfl (beq_false _),
      skipOnBit_skipsAt rfl (beq_true _), skipOnBit_skipsAt rfl (beq_false _),
      testAndClear_skipsAt rfl, testAndClear_skipsAt rfl, testAndClear_skipsAt rfl, List.forall_mem_nil _⟩
  case io =>
    intro i a v c hm ha hc u hu
    rw [← State.write4_io _ _ _ ha] at hu
    simp only [List.mem_cons, Prod.mk.injEq, List.not_mem_nil, or_false] at hm
    rcases hm with ⟨rfl, rfl, rfl, rfl⟩ | ⟨rfl, rfl, rfl, rfl⟩ | ⟨rfl, rfl, rfl, rfl⟩ | ⟨rfl, rfl, rfl, rfl⟩
    · exact incsAt_stops hu hc
    · exact incsAt_stops hu hc
    · exact exchange_stops hInv.ram (fun _ => stepUpL_stops) hu (by rwa [if_neg (eaHl_ne_l_of_isIo ha)])
    · exact exchange_stops hInv.ram (fun _ => stepDownL_stops) hu (by rwa [if_neg (eaHl_ne_l_of_isIo ha)])
  case fetch =>
    intro o ho hr hq hs hp ha
    refine ⟨fun hn => step_fetch_error ho hr hq hs hp ha (fetch_first_beyond hn), fun x k hx hk hn => ?_⟩
    obtain ⟨a, hf, hlo, hhi⟩ := fetch_beyond hx hk hn
    exact ⟨a, step_fetch_error ho hr hq hs hp ha hf, hlo, hhi⟩

end Sys2Proof.Machine
end

section
/-! What a step keeps of the mode registers: the devices leave them alone as time passes (`advance`, `quantum`, `settle`), so
that the invariant holds after an advance where it held before. -/

namespace Sys2Proof.Machine

/-! ### The mode registers -/

/-- The mode registers that the invariant reads: CLOM, WM, BTM, CSIM, TM00 and TM01, TM1. -/
structure Modes where
  clom : BitVec 4
  wm : BitVec 8
  btm : BitVec 3
  csim : BitVec 8
  mode0 : BitVec 2
  mode1 : BitVec 2
  tm1 : BitVec 8

/-- The mode registers of a state. -/
def State.modes (s : State) : Modes :=
  { clom := s.clk.clom, wm := s.watch.wm, btm := s.bt.btm, csim := s.serial.csim, mode0 := s.timer0.mode,
    mode1 := s.timer1.mode, tm1 := s.timer1.read false }

/-- The invariant reads the chip, both memories, SP, PC, POGA and the mode registers, and nothing else. -/
theorem State.Inv.congr {s t : State} (h : s.Inv) (hc : t.chip = s.chip) (hrom : t.rom = s.rom) (hram : t.ram = s.ram)
    (hsp : t.sp = s.sp) (hpc : t.pc = s.pc) (hp : t.ports.poga = s.ports.poga) (hm : t.modes = s.modes) : t.Inv := by
  simp only [State.modes, Modes.mk.injEq] at hm
  obtain ⟨hclom, hwm, hbtm, hcsim, hm0, hm1, htm1⟩ := hm
  exact ⟨by rw [hc, hrom]; exact h.rom, by rw [hram]; exact h.ram, by rw [hsp]; exact h.sp,
    by rw [hc, hpc]; exact h.pc, by rw [hclom]; exact h.clom, by rw [hwm]; exact h.wm, by rw [hp]; exact h.poga,
    by rw [hbtm]; exact h.btm, by rw [hcsim]; exact h.csim, by rw [hm0, hm1, htm1]; exact h.timers⟩

theorem SameCpu.inv {s t : State} (h : SameCpu s t) (hm : t.modes = s.modes) (hi : s.Inv) : t.Inv := by
  obtain ⟨hc, hrom, hram, hpc, -, hsp, -, -, hports, -⟩ := h.fields
  exact hi.congr hc hrom hram hsp hpc (congrArg Ports.poga hports) hm

/-! ### Counting leaves the mode of a timer alone -/

/-- `t` is `u` but for the count and the TOUT flip-flop. -/
def SameTimerMode (u t : TimerCounter) : Prop := t.mode = u.mode ∧ t.read false = u.read false

theorem SameTimerMode.trans {t u v : TimerCounter} (h : SameTimerMode t u) (k : SameTimerMode u v) : SameTimerMode t v :=
  ⟨k.1.trans h.1, k.2.trans h.2⟩

theorem pulse_sameTimerMode (t : TimerCounter) (ev : CountEvents) : SameTimerMode t (t.pulse ev).1 := by
  unfold TimerCounter.pulse
  split <;> exact ⟨rfl, rfl⟩

theorem pulses_sameTimerMode (n : Nat) (t : TimerCounter) (ev : CountEvents) : SameTimerMode t (t.pulses n ev).1 := by
  induction n generalizing t ev with
  | zero => exact ⟨rfl, rfl⟩
  | succ n ih => exact (pulse_sameTimerMode t ev).trans (ih _ _)

theorem pulse16_sameTimerMode (lo hi : TimerCounter) (ev : CountEvents) :
    SameTimerMode lo (pulse16 lo hi ev).1 ∧ SameTimerMode hi (pulse16 lo hi ev).2.1 := by
  unfold pulse16
  split
  · exact ⟨⟨rfl, rfl⟩, ⟨rfl, rfl⟩⟩
  · dsimp only
    split <;> exact ⟨⟨rfl, rfl⟩, ⟨rfl, rfl⟩⟩

theorem pulses16_sameTimerMode (n : Nat) (lo hi : TimerCounter) (ev : CountEvents) :
    SameTimerMode lo (pulses16 n lo hi ev).1 ∧ SameTimerMode hi (pulses16 n lo hi ev).2.1 := by
  induction n generalizing lo hi ev with
  | zero => exact ⟨⟨rfl, rfl⟩, ⟨rfl, rfl⟩⟩
  | succ n ih =>
    obtain ⟨hlo, hhi⟩ := pulse16_sameTimerMode lo hi ev
    obtain ⟨klo, khi⟩ := ih (pulse16 lo hi ev).1 (pulse16 lo hi ev).2.1 (pulse16 lo hi ev).2.2
    exact ⟨hlo.trans klo, hhi.trans khi⟩

/-! ### The serial clock leaves CSIM alone -/

@[simp] theorem Serial.fall_csim (u : Serial) : u.fall.csim = u.csim := by
  unfold Serial.fall
  split <;> rfl

@[simp] theorem Serial.rise_csim (u : Serial) (p0 : Nibble) : (u.rise p0).1.csim = u.csim := by
  unfold Serial.rise
  split
  · dsimp only
    split <;> rfl
  · rfl

@[simp] theorem Serial.clocks_csim (p0 : Nibble) (n : Nat) (b : Bool) (u : Serial) :
    (Serial.clocks p0 n b u).1.csim = u.csim := by
  induction n generalizing b u with
  | zero => rfl
  | succ n ih =>
    cases b with
    | true => exact (ih false u.fall).trans u.fall_csim
    | false => exact (ih true (u.rise p0).1).trans (u.rise_csim p0)

@[simp] theorem Serial.gate_csim (u : Serial) : u.gate.csim = u.csim := by
  unfold Serial.gate
  split <;> rfl

@[simp] theorem Serial.writeSio_csim (u : Serial) (v : Byte) : (u.writeSio v).csim = u.csim := by
  unfold Serial.writeSio
  split <;> rfl

/-! ### Time passing leaves the mode registers alone -/

@[simp] theorem standby_modes (s : State) (x : Standby) : { s with standby := x }.modes = s.modes := rfl
@[simp] theorem detectEdges_modes (s : State) : s.detectEdges.modes = s.modes := rfl
@[simp] theorem modeGlitches_modes (s : State) (e : Elapsed) : (s.modeGlitches e).modes = s.modes := rfl
@[simp] theorem tickPcl_modes (s : State) (e : Elapsed) : (s.tickPcl e).modes = s.modes := rfl
@[simp] theorem advanceWatch_modes (s : State) (e : Elapsed) : (s.advanceWatch e).modes = s.modes := rfl
@[simp] theorem openWindows_modes (s : State) (c : Nat) : (s.openWindows c).modes = s.modes := rfl
@[simp] theorem snapshot_modes (s : State) : s.snapshot.modes = s.modes := rfl

/-- Counters and serial interface replaced by ones with the same mode. -/
theorem timers_modes {s : State} {t0 t1 : TimerCounter} (h0 : SameTimerMode s.timer0 t0) (h1 : SameTimerMode s.timer1 t1) :
    { s with timer0 := t0, timer1 := t1 }.modes = s.modes := by
  simp only [State.modes, h0.1, h1.1, h1.2]

@[simp] theorem countTimers_modes (s : State) (n : Nat) (f : Nat → Nat) : (s.countTimers n f).1.modes = s.modes := by
  unfold State.countTimers
  dsimp only
  split
  · obtain ⟨h0, h1⟩ := pulses16_sameTimerMode n s.timer0 s.timer1 ⟨0, 0, 0⟩
    exact timers_modes h0 h1
  · have h0 := pulses_sameTimerMode n s.timer0 ⟨0, 0, 0⟩
    exact timers_modes h0 (pulses_sameTimerMode _ s.timer1 ⟨0, 0, 0⟩)

@[simp] theorem advanceTimers_modes (s : State) (e : Elapsed) (pe : PinEdges) : (s.advanceTimers e pe).1.modes = s.modes :=
  countTimers_modes s _ _

@[simp] theorem advanceSerial_modes (s : State) (e : Elapsed) (pe : PinEdges) (b : Bool) (n : Nat) :
    (s.advanceSerial e pe b n).modes = s.modes := by
  have h : (s.advanceSerial e pe b n).serial.csim = s.serial.csim := by
    unfold State.advanceSerial
    dsimp only
    split
    · split
      · exact s.serial.fall_csim
      · split
        · exact s.serial.rise_csim _
        · rfl
    · exact Serial.clocks_csim _ _ _ _
    · exact Serial.clocks_csim _ _ _ _
  unfold State.modes
  rw [h]
  rfl

@[simp] theorem advanceNoise_modes (s : State) (e : Elapsed) : (s.advanceNoise e).modes = s.modes := by
  unfold State.advanceNoise
  split <;> rfl

@[simp] theorem advanceBt_modes (s : State) (e : Elapsed) : (s.advanceBt e).modes = s.modes := by
  unfold State.advanceBt State.raiseBt
  dsimp only
  split
  · rfl
  · cases s.bt.wdtm <;> split <;> rfl

@[simp] theorem advanceConversion_modes (s : State) (n : Nat) : (s.advanceConversion n).modes = s.modes := by
  unfold State.advanceConversion
  split
  · rfl
  · split <;> rfl

@[simp] theorem advanceAdc_modes (s : State) (e : Elapsed) : (s.advanceAdc e).modes = s.modes := by
  unfold State.advanceAdc
  split
  · split
    · exact advanceConversion_modes s _
    · split
      · exact advanceConversion_modes s.beginConversion _
      · rfl
  · split <;> rfl

@[simp] theorem advanceDividers_modes (s : State) (c : Nat) (e : Elapsed) : (s.advanceDividers c e).modes = s.modes := by
  unfold State.advanceDividers State.keepRemainders
  split
  · split <;> rfl
  · split <;> rfl

@[simp] theorem tickSwitch_modes (s : State) (c : Nat) : (s.tickSwitch c).modes = s.modes := by
  unfold State.tickSwitch
  split
  · rfl
  · split
    · split <;> rfl
    · rfl

@[simp] theorem armSwitch_modes (s b : State) : (s.armSwitch b).modes = s.modes := by
  unfold State.armSwitch
  dsimp only
  split
  · rfl
  · split
    · rfl
    · exact tickSwitch_modes _ 0

@[simp] theorem advanceFor_modes (s : State) (c : Nat) (e : Elapsed) (pe : PinEdges) :
    (s.advanceFor c e pe).modes = s.modes := by
  unfold State.advanceFor
  simp only [advanceDividers_modes, tickPcl_modes, modeGlitches_modes]
  split <;> simp

@[simp] theorem advance_modes (s : State) (c : Nat) (pe : PinEdges) : (s.advance c pe).modes = s.modes :=
  (tickSwitch_modes _ _).trans (advanceFor_modes s c _ pe)

@[simp] theorem quantum_modes (s : State) (c : Nat) : (s.quantum c).modes = s.modes :=
  (advance_modes _ c _).trans (detectEdges_modes s)

@[simp] theorem advanceInstr_modes (s : State) (c : Nat) : (s.advanceInstr c).modes = s.modes := by
  unfold State.advanceInstr
  dsimp only
  split <;> simp

@[simp] theorem settle_modes (b t : State) : (settle b t).modes = t.modes := by
  simp [settle]

@[simp] theorem releaseStandby_modes (s : State) : s.releaseStandby.modes = s.modes := by
  unfold State.releaseStandby
  split <;> rfl

@[simp] theorem standbyStep_modes (s : State) : s.standbyStep.modes = s.modes := by
  unfold State.standbyStep
  generalize (if s.release then 0 else 1) = c
  dsimp only
  split
  · rw [releaseStandby_modes, quantum_modes]
  · exact quantum_modes s c

theorem quantum_inv {s : State} (c : Nat) (h : s.Inv) : (s.quantum c).Inv :=
  (quantum_sameCpu s c).inv (quantum_modes s c) h

theorem settle_inv (b : State) {t : State} (h : t.Inv) : (settle b t).Inv :=
  (settle_sameCpu b t).inv (settle_modes b t) h

theorem standbyStep_inv {s : State} (h : s.Inv) : s.standbyStep.Inv :=
  (standbyStep_sameCpu s).inv (standbyStep_modes s) h

end Sys2Proof.Machine
end

section
/-! The writes of peripheral registers (10_state.md R42): which go through, what each of them leaves alone, and that they keep
the invariant. The statement `peripheral_writes`. -/

namespace Sys2Proof.Machine

/-! ### What a peripheral write leaves alone -/

/-- The fields of State that no write of a peripheral register reaches. -/
structure CpuFields where
  chip : Chip
  rom : List Host.Cell
  ram : List (Nat × BitVec 4)
  pc : BitVec 14
  cycles : Nat
  cy : Bool
  stacked : Stacked
  addsNoskip : Bool
  mbs : BitVec 4
  rbs : BitVec 2

/-- Those fields of a state. -/
def State.cpu (s : State) : CpuFields :=
  { chip := s.chip, rom := s.rom, ram := s.ram, pc := s.pc, cycles := s.cycles, cy := s.cy, stacked := s.stacked,
    addsNoskip := s.addsNoskip, mbs := s.mbs, rbs := s.rbs }

/-- What a write of a peripheral register that leads from `s` to `t` keeps: the CPU and both memories are as before, WDTM is
not cleared (R534), the invariant still holds. -/
structure PeripheralWrite (s t : State) : Prop where
  cpu : t.cpu = s.cpu
  wdtm : s.bt.wdtm = true → t.bt.wdtm = true
  inv : s.Inv → t.Inv

theorem PeripheralWrite.refl (s : State) : PeripheralWrite s s := ⟨rfl, id, id⟩

theorem PeripheralWrite.trans {s t u : State} (h : PeripheralWrite s t) (k : PeripheralWrite t u) : PeripheralWrite s u :=
  ⟨k.cpu.trans h.cpu, k.wdtm ∘ h.wdtm, k.inv ∘ h.inv⟩

theorem PeripheralWrite.ite {s t u : State} (c : Prop) [Decidable c] (h : PeripheralWrite s t) (k : PeripheralWrite s u) :
    PeripheralWrite s (if c then t else u) := by
  split
  · exact h
  · exact k

/-- The fields a peripheral write leaves alone, one by one. -/
theorem cpu_eq_iff {s t : State} : t.cpu = s.cpu ↔ t.chip = s.chip ∧ t.rom = s.rom ∧ t.ram = s.ram ∧ t.pc = s.pc ∧
    t.cycles = s.cycles ∧ t.cy = s.cy ∧ t.stacked = s.stacked ∧ t.addsNoskip = s.addsNoskip ∧ t.mbs = s.mbs ∧
      t.rbs = s.rbs := by
  simp only [State.cpu, CpuFields.mk.injEq]

/-- The invariant after a write that may have changed SP, POGA or a mode register. -/
theorem State.Inv.of_cpu {s t : State} (h : s.Inv) (hc : t.cpu = s.cpu) (hsp : t.sp.getLsbD 0 = false)
    (hclom : t.clk.clom.getLsbD 2 = false) (hwm : t.watch.wm.getLsbD 3 = false ∧ t.watch.wm.getLsbD 6 = false)
    (hpoga : t.ports.poga &&& 0xB0 = 0) (hbtm : btmCodeOk t.bt.btm = true) (hcsim : csimOk t.serial.csim = true)
    (htimers : (t.timer0.mode = 0 ∧ (t.timer1.mode = 0 ∨ t.timer1.read false = 0x22)) ∨
      (t.timer0.mode = 2 ∧ t.timer1.read false = 0x22)) : t.Inv := by
  obtain ⟨hchip, hrom, hram, hpc, -⟩ := cpu_eq_iff.mp hc
  exact ⟨by rw [hchip, hrom]; exact h.rom, by rw [hram]; exact h.ram, hsp, by rw [hchip, hpc]; exact h.pc, hclom, hwm, hpoga,
    hbtm, hcsim, htimers⟩

/-- A write of registers that the invariant does not read. -/
theorem PeripheralWrite.plain {s t : State} (hc : t.cpu = s.cpu) (hm : t.modes = s.modes) (hsp : t.sp = s.sp)
    (hp : t.ports.poga = s.ports.poga) (hw : t.bt.wdtm = s.bt.wdtm) : PeripheralWrite s t := by
  obtain ⟨hchip, hrom, hram, hpc, -⟩ := cpu_eq_iff.mp hc
  exact ⟨hc, fun h => hw.trans h, fun h => h.congr hchip hrom hram hsp hpc hp hm⟩

theorem SameCpu.cpu {s t : State} (h : SameCpu s t) : t.cpu = s.cpu := by
  rw [h]
  rfl

/-- What time passing may change, a write may change. -/
theorem SameCpu.peripheralWrite {s t : State} (h : SameCpu s t) (hm : t.modes = s.modes) (hw : t.bt.wdtm = s.bt.wdtm) :
    PeripheralWrite s t :=
  .plain h.cpu hm (by rw [h]) (by rw [h]) hw

/-- The write `r` goes through. -/
def GoesThrough (s : State) (r : Result) : Prop := ∃ t, r = .next t ∧ PeripheralWrite s t

theorem GoesThrough.of_next {s t : State} {r : Result} (h : GoesThrough s r) (hr : r = .next t) : PeripheralWrite s t := by
  obtain ⟨u, hu, hw⟩ := h
  cases hu.symm.trans hr
  exact hw

/-! ### Registers with an operation of their own -/

theorem setLatch_write (s : State) (n : Nat) (v : Nibble) : PeripheralWrite s (s.setLatch n v) := by
  unfold State.setLatch
  split
  case h_6 => exact .refl s
  all_goals exact .plain rfl rfl rfl rfl rfl

theorem writeFlags_write (s : State) (a : DAddr) (v : Nibble) : PeripheralWrite s (s.writeFlags a v) := by
  unfold State.writeFlags
  dsimp only
  split <;> exact .plain rfl rfl rfl rfl rfl

theorem restartBt_write (s : State) : PeripheralWrite s s.restartBt := .plain rfl rfl rfl rfl rfl

theorem startConversion_write (s : State) : PeripheralWrite s s.startConversion := .plain rfl rfl rfl rfl rfl

/-- A 4-bit write of BTM goes through if its code is one of R531. -/
theorem writeBtm_goesThrough (s : State) (v : Nibble) (h : btmCodeOk (v.extractLsb' 0 3) = true) :
    GoesThrough s (s.writeBtm v) := by
  have hw : PeripheralWrite s { s with bt := { s.bt with btm := v.extractLsb' 0 3 } } :=
    ⟨rfl, id, fun hi => hi.of_cpu rfl hi.sp hi.clom hi.wm hi.poga h hi.csim hi.timers⟩
  unfold State.writeBtm
  exact ⟨_, if_pos h, .ite _ (hw.trans (restartBt_write _)) hw⟩

theorem writeBtm_refused (s : State) (v : Nibble) (h : ¬ btmCodeOk (v.extractLsb' 0 3) = true) :
    s.writeBtm v = .refused .btmCode := if_neg h

/-- The selection of the CPU clock by PCC (R512). -/
theorem selectPcc_write (s : State) (v : Nibble) : PeripheralWrite s { s with clk := { s.clk with pcc := v } } :=
  .plain rfl rfl rfl rfl rfl

theorem enterHalt_write (s : State) : PeripheralWrite s s.enterHalt := .plain rfl rfl rfl rfl rfl

theorem enterStop_goesThrough (s : State) (h : ¬ (s.clk.scc0 || s.clk.phi.sub) = true) : GoesThrough s s.enterStop :=
  ⟨_, if_neg h, .plain rfl rfl rfl rfl rfl⟩

theorem enterStop_refused (s : State) (h : (s.clk.scc0 || s.clk.phi.sub) = true) :
    s.enterStop = .refused .stopOnSubclock := if_pos h

theorem enterStop_write {s t : State} (h : s.enterStop = .next t) : PeripheralWrite s t := by
  by_cases hs : (s.clk.scc0 || s.clk.phi.sub) = true
  · cases (enterStop_refused s hs).symm.trans h
  · exact (enterStop_goesThrough s hs).of_next h

/-- A 4-bit write of PCC goes through unless it asks for STOP on the subsystem clock (R451, U14). -/
theorem writePcc_goesThrough (s : State) (v : Nibble)
    (h : ¬ (v.getLsbD 3 = true ∧ v.getLsbD 2 = false ∧ (s.clk.scc0 = true ∨ s.clk.phi.sub = true))) :
    GoesThrough s (s.writePcc v) := by
  unfold State.writePcc
  dsimp only
  split
  · next hv =>
    simp only [Bool.and_eq_true, Bool.not_eq_true'] at hv
    obtain ⟨t, ht, hw⟩ := enterStop_goesThrough { s with clk := { s.clk with pcc := v &&& 0x3 } }
      (fun hs => h ⟨hv.1, hv.2, by simpa using hs⟩)
    exact ⟨t, ht, (selectPcc_write s _).trans hw⟩
  · exact ⟨_, rfl, .ite _ ((selectPcc_write s _).trans (enterHalt_write _)) (selectPcc_write s _)⟩

theorem writePcc_refused (s : State) (v : Nibble) (h3 : v.getLsbD 3 = true) (h2 : v.getLsbD 2 = false)
    (h : s.clk.scc0 = true ∨ s.clk.phi.sub = true) : s.writePcc v = .refused .stopOnSubclock := by
  unfold State.writePcc
  simp only [h3, h2, Bool.not_false, Bool.and_self, if_true]
  exact enterStop_refused _ (by simpa using h)

/-! ### The timer/event counters -/

theorem startTimer0_write (s : State) (both : Bool) : PeripheralWrite s (s.startTimer0 both) := by
  unfold State.startTimer0
  refine .plain rfl ?_ rfl rfl rfl
  cases both <;> simp only [State.modes] <;> split <;> simp [TimerCounter.read]

theorem startTimer1_write (s : State) : PeripheralWrite s s.startTimer1 := .plain rfl rfl rfl rfl rfl

@[simp] theorem countTimers_bt (s : State) (n : Nat) (f : Nat → Nat) : (s.countTimers n f).1.bt = s.bt := by
  unfold State.countTimers
  split <;> rfl

theorem disturbTimer0_write (s : State) : PeripheralWrite s s.disturbTimer0 := by
  have hd : PeripheralWrite s { s with
      timer0 := s.timer0.destroyed s.freeCount 0,
      timer1 := if s.mode16 then s.timer1.destroyed s.freeCount 1 else s.timer1 } := by
    cases s.mode16 <;> exact .plain rfl rfl rfl rfl rfl
  unfold State.disturbTimer0
  refine .ite _ (hd.trans ?_) hd
  exact ((countTimers_sameCpu _ _ _).trans (advanceSerial_sameCpu _ _ _ _ _)).peripheralWrite
    ((advanceSerial_modes _ _ _ _ _).trans (countTimers_modes _ _ _)) (congrArg BasicTimer.wdtm (countTimers_bt _ _ _))

theorem disturbTimer1_write (s : State) : PeripheralWrite s s.disturbTimer1 := by
  have hd : PeripheralWrite s { s with timer1 := s.timer1.destroyed s.freeCount 1 } := .plain rfl rfl rfl rfl rfl
  unfold State.disturbTimer1
  refine .ite _ (hd.trans ?_) hd
  exact (countTimers_sameCpu _ _ _).peripheralWrite (countTimers_modes _ _ _)
    (congrArg BasicTimer.wdtm (countTimers_bt _ _ _))

/-- What TM1 reads as after a write (R551): bits 7 and 3 are not stored. -/
theorem read_select (t : TimerCounter) (v : Byte) : (t.select v).read false = v &&& 0x77 := by
  have h : ∀ v : Byte, (BitVec.ofBool false ++ v.extractLsb' 4 3 ++ 0#1 ++ BitVec.ofBool (v.getLsbD 2) ++
      v.extractLsb' 0 2 : Byte) = v &&& 0x77 := by decide
  exact h v

/-- A write of TM0 with mode 00, or mode 10 while TM1 holds 22H, keeps the modes that the invariant allows (R551, R557). -/
theorem selectTimer0_write (s : State) (v : Byte)
    (h : v.extractLsb' 0 2 = 0#2 ∨ (v.extractLsb' 0 2 = 2#2 ∧ s.timer1.read false = 0x22)) :
    PeripheralWrite s { s with timer0 := s.timer0.select v } := by
  refine ⟨rfl, id, fun hi => hi.of_cpu rfl hi.sp hi.clom hi.wm hi.poga hi.btm hi.csim ?_⟩
  rcases h with h0 | ⟨h2, h22⟩
  · refine .inl ⟨h0, ?_⟩
    rcases hi.timers with ⟨-, k⟩ | ⟨-, k⟩
    · exact k
    · exact .inr k
  · exact .inr ⟨h2, h22⟩

theorem tm1_of_and {v : Byte} (h : v &&& 0x7F = 0x22) : v &&& 0x77 = 0x22 := by
  revert v
  decide

/-- A write of TM1 with 22H, or with mode 00 in 8-bit mode (R551, R557). -/
theorem selectTimer1_write (s : State) (v : Byte)
    (h : v &&& 0x7F = 0x22 ∨ (v.extractLsb' 0 2 = 0#2 ∧ s.timer0.mode ≠ 2)) :
    PeripheralWrite s { s with timer1 := s.timer1.select v } := by
  refine ⟨rfl, id, fun hi => hi.of_cpu rfl hi.sp hi.clom hi.wm hi.poga hi.btm hi.csim ?_⟩
  rcases h with h22 | ⟨h0, hm⟩
  · have hr := (read_select s.timer1 v).trans (tm1_of_and h22)
    exact hi.timers.imp (fun k => ⟨k.1, .inr hr⟩) (fun k => ⟨k.1, hr⟩)
  · rcases hi.timers with ⟨k, -⟩ | ⟨k, -⟩
    · exact .inl ⟨k, .inl h0⟩
    · exact absurd k hm

theorem writeTm0_goesThrough (s : State) (v : Byte)
    (h : v.extractLsb' 0 2 = 0#2 ∨ (v.extractLsb' 0 2 = 2#2 ∧ s.timer1.read false = 0x22)) :
    GoesThrough s (s.writeTm0 v) := by
  have hstart : PeripheralWrite s (if v.getLsbD 3 then s.startTimer0 (v.extractLsb' 0 2 == 2#2) else s) :=
    .ite _ (startTimer0_write s _) (.refl s)
  have hread : (if v.getLsbD 3 then s.startTimer0 (v.extractLsb' 0 2 == 2#2) else s).timer1.read false =
      s.timer1.read false := by
    split
    · unfold State.startTimer0
      dsimp only
      split <;> rfl
    · rfl
  have hsel := hstart.trans (selectTimer0_write _ v (by rw [hread]; exact h))
  unfold State.writeTm0
  exact ⟨_, if_pos (by simpa using h), .ite _ (hsel.trans (disturbTimer0_write _)) hsel⟩

theorem writeTm0_refused (s : State) (v : Byte)
    (h : ¬ (v.extractLsb' 0 2 = 0#2 ∨ (v.extractLsb' 0 2 = 2#2 ∧ s.timer1.read false = 0x22))) :
    s.writeTm0 v = .refused .timerMode := if_neg (by simpa using h)

theorem writeTm1_goesThrough (s : State) (v : Byte)
    (h : v &&& 0x7F = 0x22 ∨ (v.extractLsb' 0 2 = 0#2 ∧ s.timer0.mode ≠ 2)) : GoesThrough s (s.writeTm1 v) := by
  have hstart : PeripheralWrite s (if v.getLsbD 3 then s.startTimer1 else s) := .ite _ (startTimer1_write s) (.refl s)
  have hmode : (if v.getLsbD 3 then s.startTimer1 else s).timer0.mode = s.timer0.mode := by split <;> rfl
  have hsel := hstart.trans (selectTimer1_write _ v (by rw [hmode]; exact h))
  unfold State.writeTm1
  exact ⟨_, if_pos (by simpa [State.mode16] using h), .ite _ (hsel.trans (disturbTimer1_write _)) hsel⟩

theorem writeTm1_refused (s : State) (v : Byte)
    (h : ¬ (v &&& 0x7F = 0x22 ∨ (v.extractLsb' 0 2 = 0#2 ∧ s.timer0.mode ≠ 2))) :
    s.writeTm1 v = .refused .timerMode := if_neg (by simpa [State.mode16] using h)

theorem writeTm1Start_goesThrough (s : State) (h : s.timer1.mode = 0 ∧ s.timer0.mode ≠ 2) :
    GoesThrough s s.writeTm1Start :=
  ⟨_, if_pos (by simpa [State.mode16] using h), startTimer1_write s⟩

theorem writeTm1Start_refused (s : State) (h : ¬ (s.timer1.mode = 0 ∧ s.timer0.mode ≠ 2)) :
    s.writeTm1Start = .refused .timerMode := if_neg (by simpa [State.mode16] using h)

/-! ### The serial interface, SCC.3 and the A/D converter -/

/-- A write of CSIM (R561), which also stops a transfer where CSIE becomes 0. -/
theorem writeCsim_write (s : State) (v : Byte) (h : s.Inv → csimOk v = true) :
    PeripheralWrite s { s with serial := { s.serial with csim := v }.gate } := by
  refine ⟨rfl, id, fun hi => hi.of_cpu rfl hi.sp hi.clom hi.wm hi.poga hi.btm ?_ hi.timers⟩
  rw [Serial.gate_csim]
  exact h hi

/-- CSIE alone can always be written: the codes that R561 prohibits do not depend on it. -/
theorem csimOk_csie (c : Byte) (v : Bool) (h : csimOk c = true) : csimOk ((c &&& 0x7F) ||| (BitVec.ofBool v ++ 0#7)) = true := by
  revert c v
  decide

theorem writeScc3_goesThrough (s : State) (v : Bool) (h : v = true → s.clk.phi.sub = true) :
    GoesThrough s (s.writeScc3 v) :=
  ⟨_, if_neg (by simpa using h), .plain rfl rfl rfl rfl rfl⟩

theorem writeScc3_refused (s : State) (h : ¬ s.clk.phi.sub = true) : s.writeScc3 true = .refused .mainStopOnMain :=
  if_pos (by simpa using h)

theorem writeAdm_write (s : State) (v : Byte) : PeripheralWrite s (s.writeAdm v) := by
  have h : PeripheralWrite s { s with adc := { s.adc with aden := v.getLsbD 7, ch := v.extractLsb' 4 3 } } :=
    .plain rfl rfl rfl rfl rfl
  unfold State.writeAdm
  exact .ite _ (h.trans (startConversion_write _)) h

/-! ### Bits that SP, CLOM, WM and POGA do not have -/

theorem sp_mask (v : Byte) : (v &&& 0xFE).getLsbD 0 = false := by simp
theorem clom_mask (v : Nibble) : (v &&& 0xB).getLsbD 2 = false := by simp
theorem wm_mask (v : Byte) : (v &&& 0xB7).getLsbD 3 = false ∧ (v &&& 0xB7).getLsbD 6 = false := by simp
theorem poga_mask (v : Byte) : v &&& 0x4F &&& 0xB0 = 0 := by
  rw [BitVec.and_assoc, show (0x4F &&& 0xB0 : Byte) = 0#8 from rfl, BitVec.and_zero]
  rfl

/-! ### Every write -/

/-- A 4-bit write elsewhere than at BTM and PCC. -/
theorem ioWrite4_goesThrough (s : State) {a : DAddr} (v : Nibble) (hbtm : a ≠ 0xF85) (hpcc : a ≠ 0xFB3) :
    GoesThrough s (s.ioWrite4 a v) := by
  unfold State.ioWrite4
  split
  case h_2 h => exact absurd (BitVec.eq_of_toNat_eq h) hbtm
  case h_5 h => exact absurd (BitVec.eq_of_toNat_eq h) hpcc
  -- FB8H to FBFH: the request and enable flags
  case h_9 | h_10 | h_11 | h_12 | h_13 | h_14 => exact ⟨_, rfl, writeFlags_write _ _ _⟩
  -- FD0H: CLOM
  case h_20 =>
    exact ⟨_, rfl, rfl, id, fun hi => hi.of_cpu rfl hi.sp (clom_mask v) hi.wm hi.poga hi.btm hi.csim hi.timers⟩
  -- FF2H to FF6H: the latches
  case h_21 | h_22 | h_23 | h_24 | h_25 => exact ⟨_, rfl, setLatch_write _ _ _⟩
  case h_26 => exact ⟨_, rfl, .refl s⟩
  all_goals exact ⟨_, rfl, .plain rfl rfl rfl rfl rfl⟩

/-- An 8-bit write elsewhere than at TM0, TM1 and CSIM. -/
theorem ioWrite8_goesThrough (s : State) {a : DAddr} (v : Byte) (htm0 : a ≠ 0xFA0) (htm1 : a ≠ 0xFA8)
    (hcsim : a ≠ 0xFE0) : GoesThrough s (s.ioWrite8 a v) := by
  unfold State.ioWrite8
  split
  -- F80H: SP
  case h_1 =>
    exact ⟨_, rfl, rfl, id, fun hi => hi.of_cpu rfl (sp_mask v) hi.clom hi.wm hi.poga hi.btm hi.csim hi.timers⟩
  -- F98H: WM
  case h_2 =>
    exact ⟨_, rfl, rfl, id, fun hi => hi.of_cpu rfl hi.sp hi.clom (wm_mask v) hi.poga hi.btm hi.csim hi.timers⟩
  case h_3 h => exact absurd (BitVec.eq_of_toNat_eq h) htm0
  case h_5 h => exact absurd (BitVec.eq_of_toNat_eq h) htm1
  case h_9 => exact ⟨_, rfl, writeAdm_write s v⟩
  -- FDCH: POGA
  case h_10 =>
    exact ⟨_, rfl, rfl, id, fun hi => hi.of_cpu rfl hi.sp hi.clom hi.wm (poga_mask v) hi.btm hi.csim hi.timers⟩
  case h_11 h => exact absurd (BitVec.eq_of_toNat_eq h) hcsim
  -- FE4H: SIO
  case h_12 =>
    refine ⟨_, rfl, .plain rfl ?_ rfl rfl rfl⟩
    simp only [State.modes, Serial.writeSio_csim]
  case h_15 => exact ⟨_, rfl, (setLatch_write _ _ _).trans (setLatch_write _ _ _)⟩
  case h_16 => exact ⟨_, rfl, .refl s⟩
  all_goals exact ⟨_, rfl, .plain rfl rfl rfl rfl rfl⟩

/-- A bit write, but for a 1 to SCC.3 and to the start bit of TM1. -/
theorem ioWriteBit_goesThrough (s : State) {a : DAddr} {b : BitVec 2} {v : Bool}
    (h : v = true → b = 3 → a ≠ 0xFB7 ∧ a ≠ 0xFA8) : GoesThrough s (s.ioWriteBit a b v) := by
  unfold State.ioWriteBit
  split
  case h_1 => exact ⟨_, rfl, .ite _ (restartBt_write s) (.refl s)⟩
  -- F8BH: WDTM can only be set
  case h_2 =>
    exact ⟨_, rfl, .ite _ ⟨rfl, fun _ => rfl, fun hi => hi.congr rfl rfl rfl rfl rfl rfl rfl⟩ (.refl s)⟩
  case h_3 => exact ⟨_, rfl, .ite _ (startTimer0_write s _) (.refl s)⟩
  case h_5 e => exact ⟨s, if_neg fun hc => (h hc.2 hc.1).2 (BitVec.eq_of_toNat_eq e), .refl s⟩
  case h_8 e =>
    split
    · next hb => exact writeScc3_goesThrough s v fun hv => absurd (BitVec.eq_of_toNat_eq e) (h hv hb).1
    · exact ⟨_, rfl, .ite _ (.plain rfl rfl rfl rfl rfl) (.refl s)⟩
  case h_9 | h_10 | h_11 | h_12 | h_13 | h_14 => exact ⟨_, rfl, writeFlags_write _ _ _⟩
  case h_7 | h_15 | h_16 | h_17 | h_18 => exact ⟨_, rfl, .plain rfl rfl rfl rfl rfl⟩
  case h_19 => exact ⟨_, rfl, .ite _ (startConversion_write s) (.refl s)⟩
  -- FE1H: CSIE
  case h_21 => exact ⟨_, rfl, .ite _ (writeCsim_write s _ fun hi => csimOk_csie _ v hi.csim) (.refl s)⟩
  -- FE2H: RELT and CMDT
  case h_22 =>
    exact ⟨_, rfl, .ite _ (.plain rfl rfl rfl rfl rfl) (.ite _ (.plain rfl rfl rfl rfl rfl) (.refl s))⟩
  case h_24 | h_25 | h_26 | h_27 | h_28 => exact ⟨_, rfl, setLatch_write _ _ _⟩
  case h_29 => exact ⟨s, rfl, .refl s⟩
  all_goals exact ⟨_, rfl, .ite _ (.plain rfl rfl rfl rfl rfl) (.refl s)⟩

/-! ### What an answer of a write says -/

theorem ioWrite4_write {s t : State} {a : DAddr} {v : Nibble} (h : s.ioWrite4 a v = .next t) : PeripheralWrite s t := by
  by_cases hbtm : a = 0xF85
  · subst hbtm
    change s.writeBtm v = .next t at h
    by_cases hc : btmCodeOk (v.extractLsb' 0 3) = true
    · exact (writeBtm_goesThrough s v hc).of_next h
    · rw [writeBtm_refused s v hc] at h
      cases h
  · by_cases hpcc : a = 0xFB3
    · subst hpcc
      change s.writePcc v = .next t at h
      by_cases hc : v.getLsbD 3 = true ∧ v.getLsbD 2 = false ∧ (s.clk.scc0 = true ∨ s.clk.phi.sub = true)
      · rw [writePcc_refused s v hc.1 hc.2.1 hc.2.2] at h
        cases h
      · exact (writePcc_goesThrough s v hc).of_next h
    · exact (ioWrite4_goesThrough s v hbtm hpcc).of_next h

theorem ioWrite8_write {s t : State} {a : DAddr} {v : Byte} (h : s.ioWrite8 a v = .next t) : PeripheralWrite s t := by
  by_cases htm0 : a = 0xFA0
  · subst htm0
    change s.writeTm0 v = .next t at h
    by_cases hc : v.extractLsb' 0 2 = 0#2 ∨ (v.extractLsb' 0 2 = 2#2 ∧ s.timer1.read false = 0x22)
    · exact (writeTm0_goesThrough s v hc).of_next h
    · rw [writeTm0_refused s v hc] at h
      cases h
  by_cases htm1 : a = 0xFA8
  · subst htm1
    change s.writeTm1 v = .next t at h
    by_cases hc : v &&& 0x7F = 0x22 ∨ (v.extractLsb' 0 2 = 0#2 ∧ s.timer0.mode ≠ 2)
    · exact (writeTm1_goesThrough s v hc).of_next h
    · rw [writeTm1_refused s v hc] at h
      cases h
  by_cases hcsim : a = 0xFE0
  · subst hcsim
    change (if csimOk v then _ else _) = _ at h
    split at h
    · next hv => cases h; exact writeCsim_write s v fun _ => hv
    · cases h
  · exact (ioWrite8_goesThrough s v htm0 htm1 hcsim).of_next h

theorem ioWriteBit_write {s t : State} {a : DAddr} {b : BitVec 2} {v : Bool} (h : s.ioWriteBit a b v = .next t) :
    PeripheralWrite s t := by
  by_cases hp : v = true → b = 3 → a ≠ 0xFB7 ∧ a ≠ 0xFA8
  · exact (ioWriteBit_goesThrough s hp).of_next h
  · push Not at hp
    obtain ⟨rfl, rfl, ha⟩ := hp
    by_cases hscc : a = 0xFB7
    · subst hscc
      change s.writeScc3 true = .next t at h
      by_cases hc : s.clk.phi.sub = true
      · exact (writeScc3_goesThrough s true fun _ => hc).of_next h
      · rw [writeScc3_refused s hc] at h
        cases h
    · obtain rfl := ha hscc
      change s.writeTm1Start = .next t at h
      by_cases hc : s.timer1.mode = 0 ∧ s.timer0.mode ≠ 2
      · exact (writeTm1Start_goesThrough s hc).of_next h
      · rw [writeTm1Start_refused s hc] at h
        cases h

/-! ### The statement -/

/-- The codes of BTM2 to BTM0 in a 4-bit write, as the statement writes them. -/
theorem btmCodeOk_iff (v : Nibble) :
    btmCodeOk (v.extractLsb' 0 3) = true ↔ v &&& 7 = 0 ∨ v &&& 7 = 3 ∨ v &&& 7 = 5 ∨ v &&& 7 = 7 := by
  revert v
  decide

theorem csimOk_iff (v : Byte) : csimOk v = true ↔ v &&& 0x60 = 0 ∧ v &&& 0xC ≠ 8 := by
  revert v
  decide

theorem mode_iff (v : Byte) : (v.extractLsb' 0 2 = 0#2 ↔ v &&& 3 = 0) ∧ (v.extractLsb' 0 2 = 2#2 ↔ v &&& 3 = 2) := by
  revert v
  decide

/-- A write that goes through under `c` and is refused otherwise, as the statement says it. -/
theorem ite_goesThrough {s : State} {r e : Result} {c d : Prop} [Decidable c] {ok : Result → Prop}
    (hok : ∀ r, GoesThrough s r → ok r) (hcd : d ↔ c) (h : d → GoesThrough s r) (k : ¬ d → r = e) :
    if c then ok r else r = e := by
  split
  · next hc => exact hok r (h (hcd.mpr hc))
  · next hc => exact k (mt hcd.mp hc)

/-- Settles O59: every write goes through (`PeripheralWrite`), but for those at the registers with prohibited values. -/
theorem peripheralWrites : Obligations.peripheral_writes := by
  unfold Obligations.peripheral_writes
  intro s a v w b x ok
  have hok : ∀ r, GoesThrough s r → ok r := by
    rintro r ⟨t, ht, hw⟩
    obtain ⟨-, hrom, hram, hpc, hcycles, hcy, hst, hadds, hmbs, hrbs⟩ := cpu_eq_iff.mp hw.cpu
    exact ⟨t, ht, hram, hpc, hcycles, hcy, hst, hadds, hrom, hmbs, hrbs⟩
  obtain ⟨m0, m2⟩ := mode_iff w
  refine ⟨fun hbtm hpcc => hok _ ?_, ?_, fun h0 h1 h2 => hok _ (ioWrite8_goesThrough s w h0 h1 h2), ?_, ?_, ?_, ?_, ?_,
    fun h => hok _ (ioWriteBit_goesThrough s h), ?_⟩
  · by_cases ha : a = 0xFB3
    · subst ha
      have hv := hpcc.resolve_left fun h => h rfl
      exact writePcc_goesThrough s v fun h => Bool.false_ne_true (hv.symm.trans h.1)
    · exact ioWrite4_goesThrough s v hbtm ha
  · exact ite_goesThrough hok (btmCodeOk_iff v) (writeBtm_goesThrough s v) (writeBtm_refused s v)
  · exact ite_goesThrough hok (csimOk_iff w) (fun h => ⟨_, if_pos h, writeCsim_write s w fun _ => h⟩) fun h => if_neg h
  · split
    · next h => exact writePcc_refused s v h.1 h.2.1 h.2.2
    · next h => exact hok _ (writePcc_goesThrough s v h)
  · exact ite_goesThrough hok (or_congr m0 (and_congr_left' m2)) (writeTm0_goesThrough s w) (writeTm0_refused s w)
  · exact ite_goesThrough hok (or_congr_right (and_congr_left' m0)) (writeTm1_goesThrough s w) (writeTm1_refused s w)
  · exact ite_goesThrough hok .rfl (writeTm1Start_goesThrough s) (writeTm1Start_refused s)
  · exact ite_goesThrough hok .rfl (fun h => writeScc3_goesThrough s true fun _ => h) (writeScc3_refused s)

end Sys2Proof.Machine
end

section
/-! What every instruction keeps: program memory, the chip, a set WDTM, the invariant, and MBS and RBS unless it is one of
those that write them. One lemma for each state operation and each shape of Machine/Shapes.lean; then one case for each
instruction. The statements `program_memory_and_banks_kept`, `invariant_at_reset` and `invariant_kept_by_step`. -/

namespace Sys2Proof.Machine

/-! ### What is kept -/

/-- From `s` to `t` program memory, the chip, a set WDTM and the invariant are kept, and MBS and RBS too unless `banks`. -/
structure Keeps (banks : Bool) (s t : State) : Prop where
  rom : t.rom = s.rom
  chip : t.chip = s.chip
  wdtm : s.bt.wdtm = true → t.bt.wdtm = true
  banks : banks = false → t.mbs = s.mbs ∧ t.rbs = s.rbs
  inv : s.Inv → t.Inv

variable {banks : Bool} {s x : State}

theorem Keeps.refl (banks : Bool) (s : State) : Keeps banks s s := ⟨rfl, rfl, id, fun _ => ⟨rfl, rfl⟩, id⟩

theorem Keeps.trans {t : State} (h : Keeps banks s x) (k : Keeps banks x t) : Keeps banks s t where
  rom := k.rom.trans h.rom
  chip := k.chip.trans h.chip
  wdtm := k.wdtm ∘ h.wdtm
  banks hb := ⟨(k.banks hb).1.trans (h.banks hb).1, (k.banks hb).2.trans (h.banks hb).2⟩
  inv := k.inv ∘ h.inv

/-- Nothing is lost by allowing for the banks. -/
theorem Keeps.weaken {t : State} (h : Keeps banks s t) : Keeps true s t :=
  ⟨h.rom, h.chip, h.wdtm, fun hb => absurd hb (by decide), h.inv⟩

theorem Keeps.ite {t u : State} (c : Prop) [Decidable c] (h : Keeps banks s t) (k : Keeps banks s u) :
    Keeps banks s (if c then t else u) := by
  split
  · exact h
  · exact k

theorem PeripheralWrite.keeps {t : State} (h : PeripheralWrite s t) : Keeps banks s t := by
  obtain ⟨hchip, hrom, -, -, -, -, -, -, hmbs, hrbs⟩ := cpu_eq_iff.mp h.cpu
  exact ⟨hrom, hchip, h.wdtm, fun _ => ⟨hmbs, hrbs⟩, h.inv⟩

/-- `t` is `s` but for fields that `Keeps` does not speak of: the PSW, the interrupt controller, the edge detectors, the
host's inputs, and the counts of cycles and free values. -/
def PlainUpdate (s t : State) : Prop :=
  t = { s with cy := t.cy, stacked := t.stacked, addsNoskip := t.addsNoskip, ist := t.ist, mbe := t.mbe, rbe := t.rbe,
               ints := t.ints, edges := t.edges, standby := t.standby, pins := t.pins, pinQueue := t.pinQueue,
               cycles := t.cycles, startedAt := t.startedAt, freeCount := t.freeCount }

theorem State.Inv.plain {t : State} (hi : s.Inv) (h : PlainUpdate s t) : t.Inv := by
  rw [h]
  exact hi.congr rfl rfl rfl rfl rfl rfl rfl

theorem Keeps.plain {t : State} (h : PlainUpdate s t) : Keeps banks s t := by
  refine ⟨by rw [h], by rw [h], fun k => ?_, fun _ => ⟨by rw [h], by rw [h]⟩, fun hi => hi.plain h⟩
  rw [h]
  exact k

/-! ### State operations -/

/-- A program address cut to PCW bits is below 2^PCW (R26, R27). -/
theorem truncPc_lt (s : State) (a : Nat) : (s.truncPc a).toNat < 2 ^ s.chip.part.pcWidth := by
  rw [State.truncPc, BitVec.toNat_ofNat]
  exact Nat.lt_of_le_of_lt (Nat.mod_le _ _) (Nat.mod_lt _ (Nat.two_pow_pos _))

namespace Keeps

theorem touch (h : Keeps banks s x) (a : DAddr) : Keeps banks s (x.touch a) :=
  h.trans (plain rfl)

theorem setCy (h : Keeps banks s x) (c : Bool) : Keeps banks s (x.setCy c) :=
  h.trans (plain rfl)

theorem ended (h : Keeps banks s x) (c : Nat) : Keeps banks s (x.ended c) :=
  h.trans (plain rfl)

theorem ramWrite (h : Keeps banks s x) (a : DAddr) (v : Nibble) : Keeps banks s (x.ramWrite a v) := by
  refine h.trans ⟨by simp, by simp, by simp, by simp, fun hi => ?_⟩
  have hw := State.ramWrite_wf x hi.ram a v
  rw [(SameButRam.refl x).ramWrite a v]
  exact ⟨hi.rom, hw, hi.sp, hi.pc, hi.clom, hi.wm, hi.poga, hi.btm, hi.csim, hi.timers⟩

theorem setReg (h : Keeps banks s x) (r : Reg) (v : Nibble) : Keeps banks s (x.setReg r v) := h.ramWrite _ _

theorem setRegIn (h : Keeps banks s x) (b : BitVec 2) (r : Reg) (v : Nibble) : Keeps banks s (x.setRegIn b r v) :=
  h.ramWrite _ _

theorem setPairIn (h : Keeps banks s x) (b : BitVec 2) (p : Rp) (v : Byte) : Keeps banks s (x.setPairIn b p v) :=
  (h.ramWrite _ _).ramWrite _ _

theorem setPair (h : Keeps banks s x) (p : Rp) (v : Byte) : Keeps banks s (x.setPair p v) := h.setPairIn _ p v

theorem setRpP (h : Keeps banks s x) (p : RpP) (v : Byte) : Keeps banks s (x.setRpP p v) := h.setPairIn _ _ v

theorem setStk (h : Keeps banks s x) (k : BitVec 8) (v : Nibble) : Keeps banks s (x.setStk k v) := h.ramWrite _ _

theorem setPc (h : Keeps banks s x) (a : Nat) : Keeps banks s (x.setPc a) :=
  h.trans ⟨rfl, rfl, id, fun _ => ⟨rfl, rfl⟩, fun hi =>
    ⟨hi.rom, hi.ram, hi.sp, truncPc_lt x a, hi.clom, hi.wm, hi.poga, hi.btm, hi.csim, hi.timers⟩⟩

theorem moveSp (h : Keeps banks s x) (k : BitVec 8) : Keeps banks s (x.moveSp k) :=
  h.trans ⟨rfl, rfl, id, fun _ => ⟨rfl, rfl⟩, fun hi =>
    ⟨hi.rom, hi.ram, sp_mask _, hi.pc, hi.clom, hi.wm, hi.poga, hi.btm, hi.csim, hi.timers⟩⟩

/-- Only an instruction that may write the banks does this. -/
theorem setBanks (h : Keeps true s x) (m : BitVec 4) (r : BitVec 2) : Keeps true s { x with mbs := m, rbs := r } :=
  h.trans ⟨rfl, rfl, id, fun hb => absurd hb (by decide), fun hi => hi.congr rfl rfl rfl rfl rfl rfl rfl⟩

/-- IST, MBE and RBE. -/
theorem setPsw (h : Keeps banks s x) (i : BitVec 2) (m r : Bool) : Keeps banks s { x with ist := i, mbe := m, rbe := r } :=
  h.trans (plain rfl)

theorem saveFrame (h : Keeps banks s x) (ret : BitVec 14) : Keeps banks s (x.saveFrame ret) := by
  unfold State.saveFrame State.saveMkI State.saveMkII
  refine .ite _ ?_ ?_
  · exact ((((h.setStk _ _).setStk _ _).setStk _ _).setStk _ _).moveSp _
  · exact ((((((h.setStk _ _).setStk _ _).setStk _ _).setStk _ _).setStk _ _).setStk _ _).moveSp _

theorem restoreFrame (h : Keeps banks s x) : Keeps banks s x.restoreFrame := by
  unfold State.restoreFrame
  refine .ite _ ?_ ?_
  · exact ((h.setPc x.frameReturn).moveSp 4).setPsw x.ist _ _
  · exact ((h.setPc x.frameReturn).moveSp 6).setPsw x.ist _ _

theorem saveInterrupt (h : Keeps banks s x) : Keeps banks s x.saveInterrupt :=
  ((((((h.setStk _ _).setStk _ _).setStk _ _).setStk _ _).setStk _ _).setStk _ _).moveSp _

theorem returnFromInterrupt (h : Keeps banks s x) : Keeps banks s (returnFromInterrupt x) :=
  ((h.setPc x.frameReturn).moveSp 6).trans (plain rfl)

end Keeps

/-! ### Answers -/

/-- Every next state that `r` answers keeps what `Keeps` says. -/
def AnswerKeeps (banks : Bool) (s : State) (r : Result) : Prop := ∀ t, r = .next t → Keeps banks s t

theorem AnswerKeeps.next {t : State} (h : Keeps banks s t) : AnswerKeeps banks s (.next t) := by
  intro u hu
  cases hu
  exact h

theorem answerKeeps_fault (f : Fault) : AnswerKeeps banks s (.fault f) := fun _ h => nomatch h

theorem answerKeeps_refused (f : Refusal) : AnswerKeeps banks s (.refused f) := fun _ h => nomatch h

theorem AnswerKeeps.andThen {r : Result} {f : State → Result} (h : AnswerKeeps banks s r)
    (k : ∀ u, Keeps banks s u → AnswerKeeps banks s (f u)) : AnswerKeeps banks s (andThen r f) := by
  intro t ht
  obtain ⟨u, hu, hf⟩ := andThen_eq_next r f t ht
  exact k u (h u hu) t hf

namespace Keeps

theorem finish (h : Keeps banks s x) (c : Nat) : AnswerKeeps banks s (x.finish c) := .next (h.ended c)

theorem skipNext (h : Keeps banks s x) : AnswerKeeps banks s x.skipNext := by
  rcases x.skipNext_cases with ⟨-, e⟩ | ⟨b, -, -, e⟩ | ⟨b, n, -, -, e⟩
  · exact e ▸ answerKeeps_fault _
  · exact e ▸ answerKeeps_refused _
  · rw [e]
    exact .next ((h.setPc (x.pc.toNat + n)).trans (plain rfl))

theorem finishSkip (h : Keeps banks s x) (c : Nat) (k : Bool) : AnswerKeeps banks s (x.finishSkip c k) := by
  cases k with
  | false => exact h.finish c
  | true => exact (h.ended c).skipNext

theorem finishRadix (h : Keeps banks s x) (c : Nat) (k : Bool) : AnswerKeeps banks s (x.finishRadix c k) := by
  rcases x.finishRadix_cases c k with ⟨-, e⟩ | ⟨b, -, ⟨-, e⟩ | ⟨-, -, e⟩ | ⟨-, -, e⟩⟩
  · exact e ▸ answerKeeps_fault _
  · exact e ▸ h.finish c
  · exact e ▸ h.finishSkip c true
  · rw [e]
    exact .next ((h.ended c).trans (plain rfl))

theorem write4 (h : Keeps banks s x) (a : DAddr) (v : Nibble) : AnswerKeeps banks s (x.write4 a v) := by
  unfold State.write4
  split
  · exact fun t ht => h.trans (ioWrite4_write ht).keeps
  · exact .next (h.ramWrite a v)

theorem write8 (h : Keeps banks s x) (a : DAddr) (v : Byte) : AnswerKeeps banks s (x.write8 a v) := by
  unfold State.write8
  split
  · exact fun t ht => h.trans (ioWrite8_write ht).keeps
  · exact .next ((h.ramWrite _ _).ramWrite _ _)

theorem writeBit (h : Keeps banks s x) (a : DAddr) (b : BitVec 2) (v : Bool) :
    AnswerKeeps banks s (x.writeBit a b v) := by
  unfold State.writeBit
  split
  · exact fun t ht => h.trans (ioWriteBit_write ht).keeps
  · exact .next (h.ramWrite _ _)

theorem stepUpL (h : Keeps banks s x) (b : BitVec 2) :
    AnswerKeeps banks s (stepUpL b x) :=
  (h.setRegIn b .l _).finishSkip 2 _

theorem stepDownL (h : Keeps banks s x) (b : BitVec 2) :
    AnswerKeeps banks s (stepDownL b x) :=
  (h.setRegIn b .l _).finishSkip 2 _

end Keeps

/-! ### Shapes -/

section Shapes

variable (banks) (s)

theorem loadA_keeps (a : DAddr) (c : Nat) : AnswerKeeps banks s (loadA a c s) :=
  (((Keeps.refl banks s).touch a).setReg .a _).finish c

theorem loadXa_keeps (a : DAddr) (c : Nat) : AnswerKeeps banks s (loadXa a c s) :=
  (((Keeps.refl banks s).touch a).setPair .xa _).finish c

theorem storeA_keeps (a : DAddr) (c : Nat) : AnswerKeeps banks s (storeA a c s) :=
  (((Keeps.refl banks s).touch a).write4 a _).andThen fun _ h => h.finish c

theorem storeXa_keeps (a : DAddr) (c : Nat) : AnswerKeeps banks s (storeXa a c s) :=
  (((Keeps.refl banks s).touch a).write8 a _).andThen fun _ h => h.finish c

theorem swapA_keeps (a : DAddr) : AnswerKeeps banks s (swapA a s) :=
  (((Keeps.refl banks s).touch a).write4 a _).andThen fun _ h => .next (h.setRegIn _ .a _)

theorem exchangeA_keeps (a : DAddr) (c : Nat) : AnswerKeeps banks s (exchangeA a c s) :=
  (swapA_keeps banks s a).andThen fun _ h => h.finish c

theorem exchangeXa_keeps (a : DAddr) (c : Nat) : AnswerKeeps banks s (exchangeXa a c s) :=
  (((Keeps.refl banks s).touch a).write8 a _).andThen fun _ h => (h.setPairIn _ .xa _).finish c

theorem setReg_keeps (r : Reg) (v : Nibble) (c : Nat) : AnswerKeeps banks s ((s.setReg r v).finish c) :=
  ((Keeps.refl banks s).setReg r v).finish c

theorem setPair_keeps (p : Rp) (v : Byte) (c : Nat) : AnswerKeeps banks s ((s.setPair p v).finish c) :=
  ((Keeps.refl banks s).setPair p v).finish c

theorem setRpP_keeps (p : RpP) (v : Byte) (c : Nat) : AnswerKeeps banks s ((s.setRpP p v).finish c) :=
  ((Keeps.refl banks s).setRpP p v).finish c

theorem setReg_skip_keeps (r : Reg) (v : Nibble) (c : Nat) (k : Bool) :
    AnswerKeeps banks s ((s.setReg r v).finishSkip c k) :=
  ((Keeps.refl banks s).setReg r v).finishSkip c k

theorem setPair_skip_keeps (p : Rp) (v : Byte) (c : Nat) (k : Bool) :
    AnswerKeeps banks s ((s.setPair p v).finishSkip c k) :=
  ((Keeps.refl banks s).setPair p v).finishSkip c k

theorem setRpP_skip_keeps (p : RpP) (v : Byte) (c : Nat) (k : Bool) :
    AnswerKeeps banks s ((s.setRpP p v).finishSkip c k) :=
  ((Keeps.refl banks s).setRpP p v).finishSkip c k

theorem accA_keeps (f : Nibble → Nibble → Nibble) (a : DAddr) : AnswerKeeps banks s (accA f a s) :=
  (((Keeps.refl banks s).touch a).setReg .a _).finish 1

/-- ADDS A,@HL and SUBS A,@HL. -/
theorem skipA_keeps (a : DAddr) (v : Nibble) (k : Bool) :
    AnswerKeeps banks s (((s.touch a).setReg .a v).finishSkip 1 k) :=
  (((Keeps.refl banks s).touch a).setReg .a v).finishSkip 1 k

/-- ADDC A,@HL and SUBC A,@HL. -/
theorem carryA_keeps (a : DAddr) (v : Nibble) (c k : Bool) :
    AnswerKeeps banks s ((((s.touch a).setReg .a v).setCy c).finishRadix 1 k) :=
  ((((Keeps.refl banks s).touch a).setReg .a v).setCy c).finishRadix 1 k

theorem carryXa_keeps (f : Byte → Byte → Bool → Byte × Bool) (p : RpP) : AnswerKeeps banks s (carryXa f p s) :=
  (((Keeps.refl banks s).setPair .xa _).setCy _).finish 2

theorem carryRp_keeps (f : Byte → Byte → Bool → Byte × Bool) (p : RpP) : AnswerKeeps banks s (carryRp f p s) :=
  (((Keeps.refl banks s).setRpP p _).setCy _).finish 2

theorem setCy_keeps (c : Bool) (n : Nat) : AnswerKeeps banks s ((s.setCy c).finish n) :=
  ((Keeps.refl banks s).setCy c).finish n

theorem putBit_keeps (a : DAddr) (b : BitVec 2) (v : Bool) : AnswerKeeps banks s (putBit a b v s) :=
  (((Keeps.refl banks s).touch a).writeBit a b v).andThen fun _ h => h.finish 2

theorem setIme_keeps (v : Bool) : AnswerKeeps banks s (setIme v s) := by
  rw [setIme_eq]
  exact .next (.plain rfl)

theorem haltCpu_keeps : AnswerKeeps banks s (haltCpu s) :=
  (((Keeps.refl banks s).touch 0xFB3).trans (enterHalt_write _).keeps).finish 2

theorem stopCpu_keeps : AnswerKeeps banks s (stopCpu s) := by
  rcases stopCpu_cases s with ⟨-, e⟩ | ⟨t, ht, e⟩
  · exact e ▸ answerKeeps_refused _
  · rw [e]
    exact .next ((enterStop_write ht).keeps.trans (.plain rfl))

theorem skipOnBit_keeps (a : DAddr) (b : BitVec 2) (v : Bool) : AnswerKeeps banks s (skipOnBit a b v s) :=
  ((Keeps.refl banks s).touch a).finishSkip 2 _

theorem finishSkip_keeps (c : Nat) (k : Bool) : AnswerKeeps banks s (s.finishSkip c k) :=
  (Keeps.refl banks s).finishSkip c k

theorem touch_skip_keeps (a : DAddr) (c : Nat) (k : Bool) : AnswerKeeps banks s ((s.touch a).finishSkip c k) :=
  ((Keeps.refl banks s).touch a).finishSkip c k

theorem testAndClear_keeps (a : DAddr) (b : BitVec 2) : AnswerKeeps banks s (testAndClear a b s) := by
  unfold testAndClear
  split
  · exact (((Keeps.refl banks s).touch a).writeBit a b false).andThen fun _ h => h.finishSkip 2 true
  · exact ((Keeps.refl banks s).touch a).finish 2

theorem cyFromBit_keeps (f : Bool → Bool → Bool) (a : DAddr) (b : BitVec 2) : AnswerKeeps banks s (cyFromBit f a b s) :=
  (((Keeps.refl banks s).touch a).setCy _).finish 2

theorem incsAt_keeps (a : DAddr) : AnswerKeeps banks s (incsAt a s) :=
  (((Keeps.refl banks s).touch a).write4 a _).andThen fun _ h => h.finishSkip 2 _

theorem tableRead_keeps (a : Nat) : AnswerKeeps banks s (tableRead a s) := by
  unfold tableRead
  split
  · exact setPair_keeps banks s .xa _ 3
  · exact answerKeeps_fault _

theorem jump_keeps (t c : Nat) : AnswerKeeps banks s (jump t c s) := ((Keeps.refl banks s).setPc t).finish c

theorem callTo_keeps (t c : Nat) : AnswerKeeps banks s (callTo t c s) :=
  (((Keeps.refl banks s).saveFrame s.pc).setPc t).finish c

/-- MOV A,#n4, MOV XA,#n8 and MOV HL,#n8: the write may be passed over, the stacked state is set (R129). -/
theorem stacked_keeps {t : State} (p : Prop) [Decidable p] (h : Keeps banks s t) (c : Nat) (g : Stacked) :
    AnswerKeeps banks s (.next { (if p then s else t).ended c with stacked := g }) :=
  .next (((Keeps.ite p (.refl banks s) h).ended c).trans (.plain rfl))

/-- BRA and CALLA (U9). -/
theorem mkII_keeps {r : Result} (h : AnswerKeeps banks s r) :
    AnswerKeeps banks s (if s.mkI then .refused .mkIIOnly else r) := by
  split
  · exact answerKeeps_refused _
  · exact h

theorem pushRp_keeps (p : Rp) : AnswerKeeps banks s (execPushRp p s) :=
  ((((Keeps.refl banks s).setStk _ _).setStk _ _).moveSp _).finish 1

theorem popRp_keeps (p : Rp) : AnswerKeeps banks s (execPopRp p s) :=
  ((((Keeps.refl banks s).setRegIn _ _ _).setRegIn _ _ _).moveSp _).finish 1

theorem pushBs_keeps : AnswerKeeps banks s (execPushBs s) :=
  ((((Keeps.refl banks s).setStk _ _).setStk _ _).moveSp _).finish 2

theorem reti_keeps : AnswerKeeps banks s (execReti s) :=
  .next ((Keeps.refl banks s).returnFromInterrupt.trans (.plain rfl))

end Shapes

/-! ### Every instruction -/

/-- GETI. -/
def isGeti : Instr → Bool
  | .getiLow _ | .getiHigh _ => true
  | _ => false

/-- The instructions that may write MBS or RBS: SEL, POP BS, and GETI, which may execute one of them. -/
def mayWriteBanks : Instr → Bool
  | .selMb _ | .selRb _ | .popBs | .getiLow _ | .getiHigh _ => true
  | _ => false

/-- What every instruction but GETI keeps, by its shape. -/
theorem exec_keeps_of_not_geti (i : Instr) (s : State) (h : isGeti i = false) :
    AnswerKeeps (mayWriteBanks i) s (exec i s) := by
  have k : ∀ b, Keeps b s s := fun b => .refl b s
  cases i with
  -- transfers (41_transfer.md)
  | movAImm => exact stacked_keeps _ s _ ((k _).setReg .a _) _ _
  | movXaImm | movHlImm => exact stacked_keeps _ s _ ((k _).setPair _ _) _ _
  | movAHl | movARpa1 | movAMem | inAPort => exact loadA_keeps _ s _ _
  | movXaHl | movXaMem | inXaPort => exact loadXa_keeps _ s _ _
  | movHlA | movMemA | outPortA => exact storeA_keeps _ s _ _
  | movHlXa | movMemXa | outPortXa => exact storeXa_keeps _ s _ _
  | xchAHl | xchARpa1 | xchAMem => exact exchangeA_keeps _ s _ _
  | xchXaHl | xchXaMem => exact exchangeXa_keeps _ s _ _
  | movAHlInc => exact (((k _).touch _).setReg .a _).stepUpL _
  | movAHlDec => exact (((k _).touch _).setReg .a _).stepDownL _
  | xchAHlInc => exact (swapA_keeps _ s _).andThen fun _ h => h.stepUpL _
  | xchAHlDec => exact (swapA_keeps _ s _).andThen fun _ h => h.stepDownL _
  | movReg1Imm | movAReg | movReg1A | notA | andAImm | orAImm | xorAImm => exact setReg_keeps _ s _ _ _
  | movRp2Imm | movXaRp | andXaRp | orXaRp | xorXaRp => exact setPair_keeps _ s _ _ _
  | movRpXa | andRpXa | orRpXa | xorRpXa => exact setRpP_keeps _ s _ _ _
  | xchAReg1 => exact (((k _).setReg _ _).setReg .a _).finish 1
  | xchXaRp => exact (((k _).setRpP _ _).setPair .xa _).finish 2
  | movtPcde | movtPcxa | movtBcde | movtBcxa => exact tableRead_keeps _ s _
  -- arithmetic, logic, increment, compare (42_arithmetic_logic.md)
  | addsAImm | incsReg | decsReg => exact setReg_skip_keeps _ s _ _ _ _
  | addsXaImm | addsXaRp | subsXaRp | incsRp1 => exact setPair_skip_keeps _ s _ _ _ _
  | addsRpXa | subsRpXa | decsRp => exact setRpP_skip_keeps _ s _ _ _ _
  | addsAHl | subsAHl => exact skipA_keeps _ s _ _ _
  | addcAHl | subcAHl => exact carryA_keeps _ s _ _ _ _
  | addcXaRp | subcXaRp => exact carryXa_keeps _ s _ _
  | addcRpXa | subcRpXa => exact carryRp_keeps _ s _ _
  | andAHl | orAHl | xorAHl => exact accA_keeps _ s _ _
  | rorcA => exact (((k _).setReg .a _).setCy _).finish 1
  | incsHl | incsMem => exact incsAt_keeps _ s _
  | skeRegImm | skeAReg | skeXaRp | sktCy => exact finishSkip_keeps _ s _ _
  | skeHlImm | skeAHl | skeXaHl => exact touch_skip_keeps _ s _ _ _
  -- bits (43_bit_manipulation.md)
  | set1Cy | clr1Cy | not1Cy => exact setCy_keeps _ s _ _
  | mov1CyFmem | mov1CyPmem | mov1CyHmem => exact cyFromBit_keeps _ s (fun _ v => v) _ _
  | and1Fmem | and1Pmem | and1Hmem | or1Fmem | or1Pmem | or1Hmem
  | xor1Fmem | xor1Pmem | xor1Hmem => exact cyFromBit_keeps _ s _ _ _
  | mov1ToFmem | mov1ToPmem | mov1ToHmem | set1Mem | set1Fmem | set1Pmem | set1Hmem | clr1Mem | clr1Fmem | clr1Pmem
  | clr1Hmem => exact putBit_keeps _ s _ _ _
  | sktMem | sktFmem | sktPmem | sktHmem | skfMem | skfFmem | skfPmem | skfHmem => exact skipOnBit_keeps _ s _ _ _
  | sktclrFmem | sktclrPmem | sktclrHmem => exact testAndClear_keeps _ s _ _
  -- branches and calls (44_branch.md, 45_subroutine_stack.md)
  | br | brFwd | brBwd | brcb | brPcde | brPcxa | brBcde | brBcxa | brAuto | brAuto1 | tbr => exact jump_keeps _ s _ _
  | bra => exact mkII_keeps _ s (jump_keeps _ s _ _)
  | call | callf | tcall => exact callTo_keeps _ s _ _
  | calla => exact mkII_keeps _ s (callTo_keeps _ s _ _)
  | ret => exact (k _).restoreFrame.finish 3
  | rets => exact (k _).restoreFrame.finishSkip 3 true
  | reti => exact reti_keeps _ s
  | pushRp => exact pushRp_keeps _ s _
  | popRp => exact popRp_keeps _ s _
  | pushBs => exact pushBs_keeps _ s
  | popBs => exact (((k _).setBanks _ _).moveSp 2).finish 2
  -- interrupt and CPU control (46_cpu_control_io_geti.md)
  | ei | di => exact setIme_keeps _ s _
  | eiIeBt | eiIeW | eiIeT0 | eiIeCsi | eiIe0 | eiIe2 | eiIe4 | eiIeT1 | eiIe1 | diIeBt | diIeW | diIeT0 | diIeCsi | diIe0
  | diIe2 | diIe4 | diIeT1 | diIe1 =>
    unfold exec
    exact putBit_keeps _ s _ _ _
  | halt => exact haltCpu_keeps _ s
  | stop => exact stopCpu_keeps _ s
  | nop => exact (k _).finish 1
  | selRb n => exact ((k _).setBanks s.mbs n).finish 2
  | selMb n => exact ((k _).setBanks n s.rbs).finish 2
  | getiLow | getiHigh => cases h
  | unassigned => exact answerKeeps_refused _

/-- A GETI entry is executed by its own meaning (R403), and is no GETI: each arm of `runEntry` is none or that meaning. -/
theorem runEntry_eq_exec {i : Instr} {s : State} {r : Result} (h : runEntry i s = some r) :
    r = exec i s ∧ isGeti i = false := by
  cases i <;> cases h <;> exact ⟨rfl, rfl⟩

theorem runEntry_keeps (i : Instr) (e : Refusal) (h : Keeps true s x) :
    AnswerKeeps true s ((runEntry i x).getD (.refused e)) := by
  cases hr : runEntry i x with
  | none => exact answerKeeps_refused e
  | some r =>
    obtain ⟨rfl, hi⟩ := runEntry_eq_exec hr
    exact fun t ht => h.trans (exec_keeps_of_not_geti i x hi t ht).weaken

theorem getiAt_keeps (a : Nat) (s : State) : AnswerKeeps true s (getiAt a s) := by
  have h := (Keeps.refl true s).ended 1
  unfold getiAt
  split
  · dsimp only
    split
    · exact runEntry_keeps _ _ h
    · exact (runEntry_keeps _ _ h).andThen fun _ k => runEntry_keeps _ _ k
    · exact answerKeeps_refused _
  · exact answerKeeps_fault _
  · exact answerKeeps_fault _

/-- What every instruction keeps. -/
theorem exec_keeps (i : Instr) (s : State) : AnswerKeeps (mayWriteBanks i) s (exec i s) := by
  cases h : isGeti i with
  | false => exact exec_keeps_of_not_geti i s h
  | true =>
    cases i with
    | getiLow t => exact getiAt_keeps _ s
    | getiHigh t => exact getiAt_keeps _ s
    | _ => cases h

/-- Settles O41: `exec_keeps`, for an instruction that may not write the banks. -/
theorem programMemoryAndBanksKept : Obligations.program_memory_and_banks_kept := by
  unfold Obligations.program_memory_and_banks_kept
  intro i s t ht
  have k := exec_keeps i s t ht
  refine ⟨k.rom, k.chip, k.wdtm, fun hmb hrb hpop hlow hhigh => k.banks ?_⟩
  unfold mayWriteBanks
  split
  · exact absurd rfl (hmb _)
  · exact absurd rfl (hrb _)
  · exact absurd rfl hpop
  · exact absurd rfl (hlow _)
  · exact absurd rfl (hhigh _)
  · rfl

/-! ### Every step -/

/-- Settles O40, clause by clause. -/
theorem invariantAtReset : Obligations.invariant_at_reset where
  rom := rfl
  ram := rfl
  sp := rfl
  pc := by decide
  clom := rfl
  wm := ⟨rfl, rfl⟩
  poga := rfl
  btm := rfl
  csim := rfl
  timers := .inl ⟨rfl, .inl rfl⟩

theorem loadVector_keeps (v : Nat) (h : Keeps banks s x) : AnswerKeeps banks s (x.loadVector v) := by
  unfold State.loadVector
  split
  · exact .next ((h.setPc _).setPsw x.ist _ _)
  · exact answerKeeps_fault _
  · exact answerKeeps_fault _

theorem enterInterrupt_keeps (n : Nat) (s : State) : AnswerKeeps false s (enterInterrupt n s) := by
  unfold enterInterrupt
  refine .andThen (loadVector_keeps (2 * n) ?_) fun _ h => .next (h.trans (.plain rfl))
  exact (Keeps.refl false s).saveInterrupt.trans (.plain rfl)

/-- The fetch moves PC on, within PCW bits (R27). -/
theorem started_keeps (s : State) (n : Nat) : Keeps false s (s.started n) :=
  ((Keeps.refl false s).setPc (s.pc.toNat + n)).trans (.plain rfl)

theorem sample_inv {s : State} (h : s.Inv) : s.sample.Inv := by
  unfold State.sample
  split
  · exact h
  · exact h.plain rfl

/-- The reset operation gives every register of the invariant its reset value, and keeps data memory or fills it (R606). -/
theorem resetOperation_inv {s : State} (h : s.Inv) : s.resetOperation.Inv where
  rom := h.rom
  ram := by
    unfold State.resetOperation
    dsimp only
    split
    · exact h.ram
    · exact Memory.wf_fill _ _ _ _ (Nat.le_refl _)
  sp := sp_mask _
  pc := h.pc
  clom := show (0 : Nibble).getLsbD 2 = false by decide
  wm := show (0 : Byte).getLsbD 3 = false ∧ (0 : Byte).getLsbD 6 = false by decide
  poga := show (0 : Byte) &&& 0xB0 = 0 by decide
  btm := rfl
  csim := show csimOk 0 = true by decide
  timers := .inl ⟨rfl, .inl rfl⟩

theorem resetWaitStep_inv {s t : State} {left : Nat} (h : s.Inv) (ht : s.resetWaitStep left = .next t) : t.Inv := by
  have hq := quantum_inv 1 h
  unfold State.resetWaitStep at ht
  dsimp only at ht
  split at ht
  · exact (loadVector_keeps (banks := false) 0 (.refl _ _) t ht).inv (hq.plain rfl)
  · cases ht
    exact hq.plain rfl

/-- An instruction or an interrupt entry, and the devices after it. -/
theorem settled_inv {s t : State} {r : Result} (b : State) (h : s.Inv) (hr : AnswerKeeps banks s r)
    (ht : andThen r (fun u => .next (settle b u)) = .next t) : t.Inv := by
  obtain ⟨u, hu, hs⟩ := andThen_eq_next _ _ t ht
  cases hs
  exact settle_inv b ((hr u hu).inv h)

theorem instrStep_inv {s t : State} (h : s.Inv) (ht : instrStep s = .next t) : t.Inv := by
  unfold instrStep at ht
  split at ht
  · cases ht
  · split at ht
    · cases ht
    · exact settled_inv s ((started_keeps s _).inv h) (exec_keeps _ _) ht

theorem runStep_inv {s t : State} (h : s.Inv) (ht : runStep s = .next t) : t.Inv := by
  unfold runStep at ht
  split at ht
  · exact settled_inv s h (enterInterrupt_keeps _ s) ht
  · exact instrStep_inv h ht

theorem modeStep_inv {s t : State} (h : s.Inv) (ht : modeStep s = .next t) : t.Inv := by
  unfold modeStep at ht
  split at ht
  · cases ht
    exact h.plain rfl
  split at ht
  · cases ht
    exact resetOperation_inv h
  cases hs : s.standby <;> rw [hs] at ht <;> dsimp only at ht
  case run =>
    split at ht
    · exact runStep_inv h ht
    · cases ht
      exact quantum_inv 1 h
  case halt | stop =>
    cases ht
    exact standbyStep_inv h
  case wait =>
    cases ht
    exact quantum_inv 1 h
  case resetHeld => exact resetWaitStep_inv h ht
  case resetWait left => exact resetWaitStep_inv h ht

/-- Settles O39: the host's sample, what the machine does, the next free values. -/
theorem invariantKeptByStep : Obligations.invariant_kept_by_step := by
  unfold Obligations.invariant_kept_by_step
  intro s t h ht
  obtain ⟨u, hu, hb⟩ := andThen_eq_next _ _ t ht
  cases hb
  exact (modeStep_inv (sample_inv h) hu).plain rfl

end Sys2Proof.Machine
end

section
/-! Reading a register back after a write (10_state.md R42), and the instructions that write IME and the interrupt enable
flags. The statements `registers_read_back` and `enable_and_disable`. -/

namespace Sys2Proof.Machine

/-! ### Fields of a nibble or byte put together again -/

theorem nibble_and_all (v : Nibble) : v = v &&& 15 := BitVec.and_allOnes.symm

theorem byte_and_all (w : Byte) : w = w &&& 0xFF := BitVec.and_allOnes.symm

theorem nibble_of_psw (v : Nibble) :
    v.extractLsb' 2 2 ++ BitVec.ofBool (v.getLsbD 1) ++ BitVec.ofBool (v.getLsbD 0) = v &&& 15 := by
  revert v
  decide

theorem nibble_of_ime_ips (v : Nibble) : BitVec.ofBool (v.getLsbD 3) ++ v.extractLsb' 0 3 = v &&& 15 := by
  revert v
  decide

theorem nibble_of_bits (v : Nibble) : nib (v.getLsbD 3) (v.getLsbD 2) (v.getLsbD 1) (v.getLsbD 0) = v &&& 15 := by
  revert v
  decide

theorem nibble_low_bit (v : Nibble) : 0#3 ++ BitVec.ofBool (v.getLsbD 0) = v &&& 1 := by
  revert v
  decide

theorem nibble_low_bits (v : Nibble) : 0#2 ++ v.extractLsb' 0 2 = v &&& 3 := by
  revert v
  decide

theorem byte_of_nibbles (w : Byte) : w.extractLsb' 4 4 ++ w.extractLsb' 0 4 = w &&& 0xFF := by
  revert w
  decide

/-! ### Reading back -/

/-- After a 4-bit write of `v` at `a`, which goes through, a read gives `v` with the bits outside `m` 0. -/
def ReadsBack4 (s : State) (v : Nibble) (a : DAddr) (m : Nibble) : Prop :=
  ∃ u, s.ioWrite4 a v = .next u ∧ u.ioRead4 a = v &&& m

/-- The same of an 8-bit access. -/
def ReadsBack8 (s : State) (w : Byte) (a : DAddr) (m : Byte) : Prop :=
  ∃ u, s.ioWrite8 a w = .next u ∧ u.ioRead8 a = w &&& m

/-- A property of every pair of a list, entry by entry. -/
theorem forall_pair_mem {α β : Type} (P : α → β → Prop) (l : List (α × β)) (h : ∀ e ∈ l, P e.1 e.2) (a : α) (b : β)
    (hm : (a, b) ∈ l) : P a b := h _ hm

/-- Settles O60: the write at each address goes through, and the fields that it fills are those that the read puts
together. -/
theorem registersReadBack : Obligations.registers_read_back := by
  unfold Obligations.registers_read_back
  intro s t v w
  constructor
  · intro a m hm h
    have hall : ReadsBack4 s v a m := by
      refine forall_pair_mem (ReadsBack4 s v) _ ?_ a m hm
      simp only [List.forall_mem_cons]
      exact ⟨⟨_, rfl, nibble_and_all v⟩, ⟨_, rfl, nibble_of_psw v⟩, ⟨_, rfl, nibble_of_ime_ips v⟩,
        ⟨_, rfl, nibble_and_all v⟩, ⟨_, rfl, nibble_low_bit v⟩, ⟨_, rfl, nibble_low_bits v⟩,
        -- FB8H, FBCH, FBEH: the flags
        ⟨_, rfl, nibble_of_bits v⟩, ⟨_, rfl, nibble_of_bits v⟩, ⟨_, rfl, nibble_of_bits v⟩,
        -- FC0H to FC3H: BSB
        ⟨_, rfl, nibble_and_all v⟩, ⟨_, rfl, nibble_and_all v⟩, ⟨_, rfl, nibble_and_all v⟩, ⟨_, rfl, nibble_and_all v⟩,
        ⟨_, rfl, nibble_low_bits v⟩, ⟨_, rfl, rfl⟩, List.forall_mem_nil _⟩
    obtain ⟨u, hu, hr⟩ := hall
    cases hu.symm.trans h
    exact hr
  · intro a m hm h
    have hall : ReadsBack8 s w a m := by
      refine forall_pair_mem (ReadsBack8 s w) _ ?_ a m hm
      simp only [List.forall_mem_cons]
      exact ⟨⟨_, rfl, rfl⟩, ⟨_, rfl, byte_and_all w⟩, ⟨_, rfl, byte_and_all w⟩, ⟨_, rfl, byte_of_nibbles w⟩,
        ⟨_, rfl, byte_of_nibbles w⟩, ⟨_, rfl, byte_and_all w⟩, List.forall_mem_nil _⟩
    obtain ⟨u, hu, hr⟩ := hall
    cases hu.symm.trans h
    exact hr

/-! ### One bit of a nibble -/

/-- The bits of `nib`. -/
theorem nib_bits (b3 b2 b1 b0 : Bool) : (nib b3 b2 b1 b0)[3] = b3 ∧ (nib b3 b2 b1 b0)[2] = b2 ∧
    (nib b3 b2 b1 b0)[1] = b1 ∧ (nib b3 b2 b1 b0)[0] = b0 := by
  revert b3 b2 b1 b0
  decide

/-- A bit write changes one of the four bits. -/
theorem nibSet_nib (b3 b2 b1 b0 : Bool) (b : BitVec 2) (v : Bool) :
    nibSet (nib b3 b2 b1 b0) b v =
      nib (if b = 3 then v else b3) (if b = 2 then v else b2) (if b = 1 then v else b1) (if b = 0 then v else b0) := by
  revert b3 b2 b1 b0 b v
  decide

/-! ### EI IExxx and DI IExxx -/

/-- `putBit` at bit `b` of `a` makes the enable flags `e`, holds off interrupts, and takes two machine cycles. -/
def WritesEnable (s : State) (v : Bool) (a : DAddr) (b : BitVec 2) (e : Flags) : Prop :=
  putBit a b v s = .next ({ s with ints := { s.ints with ie := e } }.held.after 2)

/-- A bit write of the flags at `a`: the nibble read, with the bit changed, is written back (R40). -/
theorem writesEnable_of_writeFlags {s : State} {v : Bool} {a : DAddr} {b : BitVec 2} {e : Flags} (ha : isIo a = true)
    (hw : ∀ u : State, u.ioWriteBit a b v = .next (u.writeFlags a (nibSet (u.readFlags a) b v)))
    (hf : (s.touch a).writeFlags a (nibSet ((s.touch a).readFlags a) b v) = { s with ints := { s.ints with ie := e } }.held) :
    WritesEnable s v a b e := by
  rw [WritesEnable, putBit_io s _ a b v ha (hw _), hf]

/-- The nine enable flags with the bits that EI IExxx and DI IExxx write (R381, R383). -/
theorem enable_flag_bits (s : State) (v : Bool) :
    WritesEnable s v 0xFB8 1 { s.ints.ie with bt := v } ∧ WritesEnable s v 0xFBA 1 { s.ints.ie with w := v } ∧
    WritesEnable s v 0xFBC 1 { s.ints.ie with t0 := v } ∧ WritesEnable s v 0xFBD 1 { s.ints.ie with csi := v } ∧
    WritesEnable s v 0xFBE 1 { s.ints.ie with int0 := v } ∧ WritesEnable s v 0xFBF 1 { s.ints.ie with int2 := v } ∧
    WritesEnable s v 0xFB8 3 { s.ints.ie with int4 := v } ∧ WritesEnable s v 0xFBC 3 { s.ints.ie with t1 := v } ∧
    WritesEnable s v 0xFBE 3 { s.ints.ie with int1 := v } := by
  refine ⟨?_, ?_, ?_, ?_, ?_, ?_, ?_, ?_, ?_⟩ <;> refine writesEnable_of_writeFlags rfl (fun _ => rfl) ?_ <;>
    simp [State.writeFlags, State.readFlags, nibSet_nib, nib_bits, State.touch, State.held]

/-! ### IME -/

theorem setLatch_ints (s : State) (n : Nat) (v : Nibble) : (s.setLatch n v).ints = s.ints := by
  unfold State.setLatch
  split <;> rfl

theorem writeFlags_ime (s : State) (a : DAddr) (v : Nibble) : (s.writeFlags a v).ints.ime = s.ints.ime := by
  unfold State.writeFlags
  dsimp only
  split <;> rfl

/-- No bit write changes IME: the one of FB2H bit 3 is discarded (R39, U7). -/
theorem ioWriteBit_ime {s t : State} {a : DAddr} {b : BitVec 2} {v : Bool} (h : s.ioWriteBit a b v = .next t) :
    t.ints.ime = s.ints.ime := by
  unfold State.ioWriteBit State.writeTm1Start State.writeScc3 at h
  split at h
  case h_9 | h_10 | h_11 | h_12 | h_13 | h_14 =>
    cases h
    exact writeFlags_ime s a _
  case h_24 | h_25 | h_26 | h_27 | h_28 =>
    cases h
    exact congrArg Interrupts.ime (setLatch_ints s _ _)
  case h_5 =>
    split at h
    · split at h <;> cases h
      rfl
    · cases h
      rfl
  case h_8 =>
    split at h
    · split at h <;> cases h
      rfl
    · cases h
      split <;> rfl
  case h_7 | h_15 | h_16 | h_17 | h_18 | h_29 =>
    cases h
    rfl
  case h_22 =>
    cases h
    split
    · rfl
    · split <;> rfl
  all_goals
    cases h
    split <;> rfl

/-! ### The statement -/

/-- Settles O26: EI and DI by `setIme_eq`, the eighteen others by the bit that each writes. -/
theorem enableAndDisable : Obligations.enable_and_disable := by
  unfold Obligations.enable_and_disable
  intro s
  refine ⟨setIme_eq true s, setIme_eq false s, ?_, fun a b x t h => ioWriteBit_ime h⟩
  obtain ⟨ei1, ei2, ei3, ei4, ei5, ei6, ei7, ei8, ei9⟩ := enable_flag_bits s true
  obtain ⟨di1, di2, di3, di4, di5, di6, di7, di8, di9⟩ := enable_flag_bits s false
  refine forall_pair_mem (fun i e => exec i s = .next ({ s with ints := { s.ints with ie := e } }.held.after 2)) _ ?_
  simp only [List.forall_mem_cons]
  exact ⟨ei1, di1, ei2, di2, ei3, di3, ei4, di4, ei5, di5, ei6, di6, ei7, di7, ei8, di8, ei9, di9, List.forall_mem_nil _⟩

end Sys2Proof.Machine
end

section
/-! Interrupt entry and return (60_exceptions.md R436, R437; 45_subroutine_stack.md R357): the frame that is pushed, what
pops it, and that the two undo each other. The statements `return_from_interrupt`, `interrupt_entry` and
`reti_undoes_interrupt_entry`. -/

namespace Sys2Proof.Machine

/-! ### The stack pointer and stack addresses -/

theorem and_fe_of_even (v : Byte) (h : v.getLsbD 0 = false) : v &&& 0xFE = v := by
  revert v
  decide

theorem add_even (a b : Byte) (ha : a.getLsbD 0 = false) (hb : b.getLsbD 0 = false) : (a + b).getLsbD 0 = false := by
  simp_all [BitVec.getElem_add]

/-- SP bit 0 stays 0 in a move by an even amount, so that the mask has no effect (R36). -/
theorem moveSp_eq (s : State) (k : BitVec 8) (h : s.sp.getLsbD 0 = false) (hk : k.getLsbD 0 = false) :
    s.moveSp k = { s with sp := s.sp + k } := by
  rw [State.moveSp, and_fe_of_even _ (add_even _ _ h hk)]

/-- The stack is in RAM if SBS1 = 0: banks 0 and 1 (R80, R91). -/
theorem isRam_stkAddr (s : State) (k : BitVec 8) : isRam (s.stkAddr k) = !s.sbs.getLsbD 1 := by
  have hs : ∀ b : Nibble, (b.extractLsb' 0 2).toNat < 2 ↔ b.getLsbD 1 = false := by decide
  have ha : (s.stkAddr k).toNat = (s.sbs.extractLsb' 0 2).toNat * 2 ^ 8 + (s.sp + k).toNat := by
    simp only [State.stkAddr, append_toNat]
    simp
  have hlt := (s.sp + k).isLt
  have hi : isRam (s.stkAddr k) = true ↔ s.sbs.getLsbD 1 = false := by
    rw [← hs, isRam, decide_eq_true_eq, ha]
    simp only [ramSize]
    omega
  rw [Bool.eq_iff_iff, hi, Bool.not_eq_true']

/-- A nibble pushed where the stack is in RAM. -/
theorem stackWord_ram {s : State} (h : s.sbs.getLsbD 1 = false) (k : BitVec 8) (v : Nibble) :
    s.stackWord k v = [(s.stkAddr k, v)] := by
  rw [State.stackWord, ramWords, isRam_stkAddr, h]
  rfl

/-- A nibble pushed in bank 2 or 3 is lost (U4). -/
theorem stackWord_lost {s : State} (h : s.sbs.getLsbD 1 = true) (k : BitVec 8) (v : Nibble) : s.stackWord k v = [] := by
  rw [State.stackWord, ramWords, isRam_stkAddr, h]
  rfl

/-- A push on the stack of `s`. -/
theorem Wrote.setStk {s x : State} {ws : List (DAddr × Nibble)} (h : Wrote s x ws) (hb : x.sbs = s.sbs) (hp : x.sp = s.sp)
    (k : BitVec 8) (v : Nibble) : Wrote s (x.setStk k v) (s.stackWord k v ++ ws) := by
  have e : x.stkAddr k = s.stkAddr k := by rw [State.stkAddr, State.stkAddr, hb, hp]
  rw [State.setStk, e]
  exact h.ramWrite _ _

/-- Words written to different addresses may be listed in any order. -/
theorem wordAfter_perm {us vs : List (DAddr × Nibble)} (h : us.Perm vs) (hd : (us.map Prod.fst).Nodup) (s : State)
    (a : DAddr) : wordAfter us s a = wordAfter vs s a := by
  induction h with
  | nil => rfl
  | cons p _ ih =>
    rw [wordAfter_cons, wordAfter_cons, ih (List.nodup_cons.mp hd).2]
  | swap p q l =>
    have hne : q.1 ≠ p.1 := by simp_all
    rw [wordAfter_cons, wordAfter_cons, wordAfter_cons, wordAfter_cons]
    by_cases hq : a = q.1
    · rw [if_pos hq, if_pos hq, if_neg fun hp => hne (hq.symm.trans hp)]
    · rw [if_neg hq, if_neg hq]
  | trans h1 _ ih1 ih2 => exact (ih1 hd).trans (ih2 ((h1.map Prod.fst).nodup_iff.mp hd))

/-! ### The nibbles of the PSW -/

theorem pswHigh_eq (s : State) :
    s.pswHigh = nib s.cy (s.stacked == .groupB) (s.stacked == .groupA) s.addsNoskip := by
  unfold State.pswHigh State.skipFlags
  cases s.stacked <;> cases s.cy <;> cases s.addsNoskip <;> rfl

/-- The skip state comes back from SK2 and SK1 (R31, D3). -/
theorem stackedOf_pswHigh (s : State) : stackedOf s.pswHigh = s.stacked := by
  rw [pswHigh_eq]
  cases s.stacked <;> cases s.cy <;> cases s.addsNoskip <;> rfl

/-- CY and SK0. -/
theorem pswHigh_bits (s : State) : s.pswHigh.getLsbD 3 = s.cy ∧ s.pswHigh.getLsbD 0 = s.addsNoskip := by
  obtain ⟨h3, -, -, h0⟩ := nib_bits s.cy (s.stacked == .groupB) (s.stacked == .groupA) s.addsNoskip
  rw [pswHigh_eq]
  exact ⟨h3, h0⟩

/-- IST, MBE and RBE. -/
theorem pswLow_fields (s : State) :
    s.pswLow.extractLsb' 2 2 = s.ist ∧ s.pswLow.getLsbD 1 = s.mbe ∧ s.pswLow.getLsbD 0 = s.rbe := by
  have h : ∀ (i : BitVec 2) (m r : Bool),
      (i ++ BitVec.ofBool m ++ BitVec.ofBool r : Nibble).extractLsb' 2 2 = i ∧
      (i ++ BitVec.ofBool m ++ BitVec.ofBool r : Nibble).getLsbD 1 = m ∧
      (i ++ BitVec.ofBool m ++ BitVec.ofBool r : Nibble).getLsbD 0 = r := by decide
  exact h s.ist s.mbe s.rbe

/-- The nibble at the old SP-5: the top bits of PC, in Mk I mode with MBE and RBE (R436). -/
def State.topNibble (s : State) : Nibble :=
  if s.mkI then s.flagNibble s.pc else 0#2 ++ s.pc.extractLsb' 12 2

theorem two_bits (v : BitVec 14) : v.extractLsb' 12 2 = BitVec.ofBool (v.getLsbD 13) ++ BitVec.ofBool (v.getLsbD 12) := by
  have h : ∀ a b : Bool, (BitVec.ofBool a ++ BitVec.ofBool b : BitVec 2)[0] = b ∧
      (BitVec.ofBool a ++ BitVec.ofBool b : BitVec 2)[1] = a := by decide
  obtain ⟨h0, h1⟩ := h (v.getLsbD 13) (v.getLsbD 12)
  ext i hi
  interval_cases i
  · simpa using h0.symm
  · simpa using h1.symm

theorem topNibble_eq (s : State) : s.topNibble =
    nib (s.sbs.getLsbD 3 && s.mbe) (s.sbs.getLsbD 3 && s.rbe) (s.pc.getLsbD 13) (s.pc.getLsbD 12) := by
  have h : ∀ k m r a b : Bool,
      (if k then BitVec.ofBool m ++ BitVec.ofBool r ++ (BitVec.ofBool a ++ BitVec.ofBool b)
        else 0#2 ++ (BitVec.ofBool a ++ BitVec.ofBool b) : Nibble) = nib (k && m) (k && r) a b := by decide
  unfold State.topNibble State.flagNibble State.mkI
  rw [two_bits]
  exact h _ _ _ _ _

/-- PC from the four nibbles that hold it. -/
theorem pc_of_frame (s : State) :
    s.topNibble.extractLsb' 0 2 ++ s.pc.extractLsb' 8 4 ++ s.pc.extractLsb' 4 4 ++ s.pc.extractLsb' 0 4 = s.pc := by
  have h : ∀ (x y z w : Bool), (nib x y z w).extractLsb' 0 2 = BitVec.ofBool z ++ BitVec.ofBool w := by decide
  rw [topNibble_eq, h, ← two_bits]
  apply BitVec.eq_of_toNat_eq
  simp only [append_toNat, BitVec.extractLsb'_toNat, Nat.shiftRight_eq_div_pow]
  have := s.pc.isLt
  omega

/-- A PC within PCW bits is not cut. -/
theorem truncPc_pc {s : State} (h : s.Inv) : s.truncPc s.pc.toNat = s.pc := by
  rw [State.truncPc, Nat.mod_eq_of_lt h.pc, BitVec.ofNat_toNat, BitVec.setWidth_eq]

/-! ### RETI -/

/-- Settles O33: RETI field by field; the mask on SP has no effect, because SP bit 0 is 0. -/
theorem retiReturnsFromInterrupt : Obligations.return_from_interrupt := by
  unfold Obligations.return_from_interrupt
  intro s h
  have e : (s.setPc s.frameReturn).moveSp 6 = { s.setPc s.frameReturn with sp := s.sp + 6 } := moveSp_eq _ 6 h.sp rfl
  simp only [exec, execReti, returnFromInterrupt, e]
  rfl

/-! ### Interrupt entry -/

theorem saveInterrupt_eq {s : State} (h : s.sp.getLsbD 0 = false) :
    s.saveInterrupt = { s with ram := s.saveInterrupt.ram, sp := s.sp - 6 } := by
  have hb := ((((((SameButRam.refl s).setStk (-1) s.pswHigh).setStk (-2) s.pswLow).setStk (-3)
    (s.pc.extractLsb' 4 4)).setStk (-4) (s.pc.extractLsb' 0 4)).setStk (-5) s.topNibble).setStk (-6) (s.pc.extractLsb' 8 4)
  have e : (s.sp + -6) &&& 0xFE = s.sp - 6 :=
    (and_fe_of_even _ (add_even _ (-6) h rfl)).trans (BitVec.sub_eq_add_neg _ _).symm
  rw [← e]
  exact congrArg (fun y : State => y.moveSp (-6)) hb

/-- The six nibbles, the last one pushed first. -/
theorem saveInterrupt_wrote (s : State) (h : Memory.wf ramDefault ramSize s.ram = true) :
    Wrote s s.saveInterrupt
      (s.stackWord (-6) (s.pc.extractLsb' 8 4) ++ (s.stackWord (-5) s.topNibble ++
        (s.stackWord (-4) (s.pc.extractLsb' 0 4) ++ (s.stackWord (-3) (s.pc.extractLsb' 4 4) ++
          (s.stackWord (-2) s.pswLow ++ (s.stackWord (-1) s.pswHigh ++ [])))))) := by
  have k := ((((((Wrote.refl s h).setStk rfl rfl (-1) s.pswHigh).setStk (by simp) (by simp) (-2) s.pswLow).setStk
    (by simp) (by simp) (-3) (s.pc.extractLsb' 4 4)).setStk (by simp) (by simp) (-4) (s.pc.extractLsb' 0 4)).setStk
      (by simp) (by simp) (-5) s.topNibble).setStk (by simp) (by simp) (-6) (s.pc.extractLsb' 8 4)
  exact k.congr rfl

/-- The words of the frame, from the top down. -/
def State.interruptFrame (s : State) : List (DAddr × Nibble) :=
  s.stackWord (-1) s.pswHigh ++ s.stackWord (-2) s.pswLow ++ s.stackWord (-3) (s.pc.extractLsb' 4 4) ++
    s.stackWord (-4) (s.pc.extractLsb' 0 4) ++ s.stackWord (-5) s.topNibble ++ s.stackWord (-6) (s.pc.extractLsb' 8 4)

/-- The frame where the stack is in RAM. -/
theorem interruptFrame_ram {s : State} (h : s.sbs.getLsbD 1 = false) : s.interruptFrame =
    [(s.stkAddr (-1), s.pswHigh), (s.stkAddr (-2), s.pswLow), (s.stkAddr (-3), s.pc.extractLsb' 4 4),
      (s.stkAddr (-4), s.pc.extractLsb' 0 4), (s.stkAddr (-5), s.topNibble), (s.stkAddr (-6), s.pc.extractLsb' 8 4)] := by
  simp only [State.interruptFrame, stackWord_ram h, List.cons_append, List.nil_append]

theorem saveInterrupt_words (s : State) (h : Memory.wf ramDefault ramSize s.ram = true) (a : DAddr) :
    s.saveInterrupt.ramRead a = wordAfter s.interruptFrame s a := by
  rw [(saveInterrupt_wrote s h).words]
  cases hb : s.sbs.getLsbD 1 with
  | true => simp only [State.interruptFrame, stackWord_lost hb, List.append_nil]
  | false =>
    rw [interruptFrame_ram hb]
    simp only [stackWord_ram hb, List.cons_append, List.nil_append]
    refine wordAfter_perm (List.reverse_perm [_, _, _, _, _, _]) ?_ s a
    simp [State.stkAddr_inj]

/-- The state after the entry of interrupt `n`, whose vector holds `b0` and `b1`. -/
def State.entered (s : State) (n : Nat) (b0 b1 : Byte) : State :=
  { s with
    ram := s.saveInterrupt.ram, sp := s.sp - 6, ist := s.ist + 1,
    pc := s.truncPc (b0.extractLsb' 0 6 ++ b1 : BitVec 14).toNat, mbe := b0.getLsbD 7, rbe := b0.getLsbD 6,
    stacked := .none, addsNoskip := false, cycles := s.cycles + 3,
    ints := { s.ints with irq := (s.clearAccepted n).ints.irq, holdoff := true } }

/-- The vector is read in the program memory of `s`. -/
theorem romByte_congr {s x : State} (hc : x.chip = s.chip) (hr : x.rom = s.rom) (a : Nat) : x.romByte a = s.romByte a := by
  simp only [State.romByte, hc, hr]

/-- The state that an entry loads its vector in has the program memory of `s`. -/
theorem entry_romByte (s : State) (n a : Nat) :
    (({ s.saveInterrupt with ist := s.ist + 1 }).clearAccepted n).romByte a = s.romByte a :=
  have k := (Keeps.refl false s).saveInterrupt
  romByte_congr k.chip k.rom a

theorem enterInterrupt_eq {s : State} {n : Nat} {b0 b1 : Byte} (h : s.sp.getLsbD 0 = false)
    (h0 : s.romByte (2 * n) = some b0) (h1 : s.romByte (2 * n + 1) = some b1) :
    enterInterrupt n s = .next (s.entered n b0 b1) := by
  unfold enterInterrupt
  rw [State.loadVector_next _ _ b0 b1 ((entry_romByte s n _).trans h0) ((entry_romByte s n _).trans h1), andThen_next,
    saveInterrupt_eq h]
  rfl

/-- A vector that is loaded is in the ROM. -/
theorem loadVector_bytes {s t : State} {v : Nat} (h : s.loadVector v = .next t) :
    ∃ b0 b1, s.romByte v = some b0 ∧ s.romByte (v + 1) = some b1 := by
  unfold State.loadVector at h
  split at h
  · next b0 b1 h0 h1 => exact ⟨b0, b1, h0, h1⟩
  · cases h
  · cases h

/-- An entry that answers a next state has read its vector. -/
theorem enterInterrupt_next {s t : State} {n : Nat} (h : s.sp.getLsbD 0 = false) (ht : enterInterrupt n s = .next t) :
    ∃ b0 b1, t = s.entered n b0 b1 := by
  obtain ⟨u, hu, -⟩ := andThen_eq_next _ _ t ht
  obtain ⟨b0, b1, h0, h1⟩ := loadVector_bytes hu
  have e := enterInterrupt_eq h ((entry_romByte s n _).symm.trans h0) ((entry_romByte s n _).symm.trans h1)
  cases ht.symm.trans e
  exact ⟨b0, b1, rfl⟩

/-- The request flags after acceptance, as the statement lists them (R437). -/
theorem clearAccepted_irq (s : State) : ∀ p ∈ ([(1, { s.ints.irq with
      bt := s.ints.irq.bt && (s.ints.ie.int4 || !s.ints.ie.bt), int4 := s.ints.irq.int4 && s.ints.ie.bt }),
    (2, { s.ints.irq with int0 := false }), (3, { s.ints.irq with int1 := false }), (4, { s.ints.irq with csi := false }),
    (5, { s.ints.irq with t0 := false }), (6, { s.ints.irq with t1 := false })] : List (Nat × Flags)),
    (s.clearAccepted p.1).ints.irq = p.2 := by
  have hbt : (s.clearAccepted 1).ints.irq = { s.ints.irq with
      bt := s.ints.irq.bt && (s.ints.ie.int4 || !s.ints.ie.bt), int4 := s.ints.irq.int4 && s.ints.ie.bt } := by
    simp only [State.clearAccepted]
    cases s.ints.ie.bt <;> cases s.ints.ie.int4 <;> simp
  simp only [List.forall_mem_cons]
  exact ⟨hbt, rfl, rfl, rfl, rfl, rfl, List.forall_mem_nil _⟩

/-- Settles O45: the state after the entry, its request flags, and data memory word by word. -/
theorem interruptEntry : Obligations.interrupt_entry := by
  unfold Obligations.interrupt_entry
  intro s n b0 b1 q h h0 h1 hq
  have hirq : (s.clearAccepted n).ints.irq = q := clearAccepted_irq s _ hq
  refine ⟨s.entered n b0 b1, enterInterrupt_eq h.sp h0 h1, by rw [← hirq]; rfl, fun a => ?_⟩
  rw [← pswHigh_eq, ← topNibble_eq]
  exact saveInterrupt_words s h.ram a

/-! ### Entry and return -/

/-- What RETI finds on the stack right after an entry. -/
theorem entered_stk {s : State} {n : Nat} {b0 b1 : Byte} (h : Memory.wf ramDefault ramSize s.ram = true)
    (hb : s.sbs.getLsbD 1 = false) (j k : BitVec 8) (v : Nibble) (hk : k - 6 = j)
    (hv : wordAfter s.interruptFrame s (s.stkAddr j) = v) : (s.entered n b0 b1).stk k = v := by
  have ha : (s.entered n b0 b1).stkAddr k = s.stkAddr j := by
    have e : s.sp - 6 + k = s.sp + j := by rw [← hk]; bv_omega
    exact congrArg (fun p => 0#2 ++ s.sbs.extractLsb' 0 2 ++ p) e
  rw [State.stk, ha, isRam_stkAddr, hb, ← hv]
  exact saveInterrupt_words s h _

/-- The six nibbles, from SP up. -/
theorem entered_frame {s : State} (n : Nat) (b0 b1 : Byte) (h : Memory.wf ramDefault ramSize s.ram = true)
    (hb : s.sbs.getLsbD 1 = false) :
    (s.entered n b0 b1).stk 0 = s.pc.extractLsb' 8 4 ∧ (s.entered n b0 b1).stk 1 = s.topNibble ∧
    (s.entered n b0 b1).stk 2 = s.pc.extractLsb' 0 4 ∧ (s.entered n b0 b1).stk 3 = s.pc.extractLsb' 4 4 ∧
    (s.entered n b0 b1).stk 4 = s.pswLow ∧ (s.entered n b0 b1).stk 5 = s.pswHigh := by
  have frame := interruptFrame_ram hb
  refine ⟨entered_stk h hb (-6) 0 _ rfl ?_, entered_stk h hb (-5) 1 _ rfl ?_, entered_stk h hb (-4) 2 _ rfl ?_,
    entered_stk h hb (-3) 3 _ rfl ?_, entered_stk h hb (-2) 4 _ rfl ?_, entered_stk h hb (-1) 5 _ rfl ?_⟩ <;>
    simp [frame, wordAfter_cons, State.stkAddr_inj]

/-- Words outside the frame are as before. -/
theorem interruptFrame_other {s : State} (hb : s.sbs.getLsbD 1 = false) (x : DAddr)
    (hx : ∀ k ∈ ([-1, -2, -3, -4, -5, -6] : List (BitVec 8)), x ≠ s.stkAddr k) :
    wordAfter s.interruptFrame s x = s.ramRead x := by
  simp only [List.forall_mem_cons] at hx
  obtain ⟨h1, h2, h3, h4, h5, h6, -⟩ := hx
  simp only [interruptFrame_ram hb, wordAfter_cons, if_neg h1, if_neg h2, if_neg h3, if_neg h4, if_neg h5, if_neg h6,
    wordAfter_nil]

/-- Settles O46: RETI pops the six nibbles that the entry has pushed. -/
theorem retiUndoesInterruptEntry : Obligations.reti_undoes_interrupt_entry := by
  unfold Obligations.reti_undoes_interrupt_entry
  intro s t u n h hb ht hu
  have hti : t.Inv := (enterInterrupt_keeps n s t ht).inv h
  obtain ⟨b0, b1, rfl⟩ := enterInterrupt_next h.sp ht
  rw [retiReturnsFromInterrupt _ hti] at hu
  cases hu
  obtain ⟨e0, e1, e2, e3, e4, e5⟩ := entered_frame n b0 b1 h.ram hb
  obtain ⟨hist, hmbe, hrbe⟩ := pswLow_fields s
  obtain ⟨hcy, hadds⟩ := pswHigh_bits s
  dsimp only
  rw [e0, e1, e2, e3, e4, e5, pc_of_frame]
  exact ⟨truncPc_pc h, hist, hmbe, hrbe, hcy, stackedOf_pswHigh s, hadds, BitVec.sub_add_cancel _ _, fun x hx =>
    (saveInterrupt_words s h.ram x).trans (interruptFrame_other hb x hx)⟩

end Sys2Proof.Machine
end

section
/-! Data memory as the instructions address it (20_memory.md R80 to R90, R96): the effective addresses, stores, bit writes,
and the transfers and increments that may skip after their write, in RAM and in the peripheral area. The statements
`memory_reads_back`, `effective_addresses`, `memory_stores`, `autoincrement_transfers`, `memory_increment`, `bit_writes`,
`test_and_clear`, and, for the decoder, `decode_table_words`. -/

namespace Sys2Proof.Machine

/-! ### Words of data memory -/

/-- `DMemWrite(a, 8, v)` outside the peripheral area. -/
theorem State.write8_outside (s : State) (a : DAddr) (v : Byte) (h : isIo a = false) :
    s.write8 a v = .next ((s.ramWrite a (v.extractLsb' 0 4)).ramWrite (a + 1) (v.extractLsb' 4 4)) := by
  simp [State.write8, h]

/-- RAM ends at an odd address (R80): the second word of an 8-bit operand in RAM is in RAM too. -/
theorem isRam_succ_of_even {a : DAddr} (he : a.getLsbD 0 = false) (hr : isRam a = true) : isRam (a + 1) = true := by
  have hodd : a.toNat % 2 ≠ 1 := by simpa [BitVec.getLsbD, Nat.testBit_zero] using he
  have hlt : a.toNat < 512 := of_decide_eq_true hr
  have hsucc : (a + 1).toNat = a.toNat + 1 := by bv_omega
  exact decide_eq_true (by rw [hsucc, ramSize]; omega)

/-- Settles O57: a write is read back word by word (`Wrote`); an 8-bit operand in RAM is the two words put together. -/
theorem memoryReadsBack : Obligations.memory_reads_back := by
  unfold Obligations.memory_reads_back
  intro s t a v w hInv hio
  refine ⟨fun ht => ?word, fun he hr ht => ?pair⟩
  case word =>
    rw [State.write4_outside _ _ _ hio] at ht
    cases ht
    have read : ∀ x, (s.ramWrite a v).ramRead x = if x = a ∧ isRam a = true then v else s.ramRead x :=
      fun x => State.ramRead_ramWrite s hInv.ram a x v
    refine ⟨fun hr => ?_, fun hr => State.ramWrite_unmapped s a v hr, fun x hx => ?_⟩
    · rw [State.read4_ram _ _ hr, read, if_pos ⟨rfl, hr⟩]
    · rw [read, if_neg fun h => hx h.1]
  case pair =>
    rw [State.write8_outside _ _ _ hio] at ht
    cases ht
    have hne : a + 1 ≠ a := by bv_omega
    have hr1 := isRam_succ_of_even he hr
    have written := ((Wrote.refl s hInv.ram).write8 a w he).words
    simp only [ramWords8, hr, if_true, List.cons_append, List.nil_append, wordAfter_cons, wordAfter_nil] at written
    have low := (written a).trans (if_pos rfl)
    have high := (written (a + 1)).trans ((if_neg hne).trans (if_pos rfl))
    refine ⟨?_, (State.read4_ram _ _ hr).trans low, (State.read4_ram _ _ hr1).trans high, fun x hx hx1 => ?_⟩
    · rw [State.read8, if_pos hr, low, high, byte_of_nibbles, ← byte_and_all]
    · rw [written, if_neg hx, if_neg hx1]

/-! ### Effective addresses as numbers -/

theorem mbDirect_toNat (s : State) (m : Byte) :
    (s.mbDirect m).toNat = if s.mbe then s.mbs.toNat else if m.toNat < 0x80 then 0 else 15 := by
  have hm : m ≤ 0x7F ↔ m.toNat < 0x80 := by bv_omega
  simp only [State.mbDirect, hm]
  split
  · rfl
  · split <;> rfl

theorem mbIndirect_toNat (s : State) : s.mbIndirect.toNat = if s.mbe then s.mbs.toNat else 0 := by
  unfold State.mbIndirect
  split <;> rfl

/-- Bit 0 of an 8-bit `mem` is ignored (D7). -/
theorem evenMem_toNat (m : Byte) : (evenMem m).toNat = m.toNat / 2 * 2 := by
  revert m
  decide

/-- Bit 0 of L is ignored by the 8-bit `@HL` (R89). -/
theorem even_nibble_toNat (l : Nibble) : (l &&& 0xE).toNat = l.toNat / 2 * 2 := by
  revert l
  decide

/-- L3, L2 and L1, L0, the word and the bit of `pmem.@L` (R90). -/
theorem nibble_halves_toNat (l : Nibble) :
    (l.extractLsb' 2 2).toNat = l.toNat / 4 ∧ (l.extractLsb' 0 2).toNat = l.toNat % 4 := by
  revert l
  decide

/-- Settles O58: each address is a concatenation, so a sum of its fields by their weights (`append_toNat`). -/
theorem effectiveAddresses : Obligations.effective_addresses := by
  unfold Obligations.effective_addresses
  intro s m hi f g d ind h l
  have hind : s.mbIndirect.toNat = ind := mbIndirect_toNat s
  obtain ⟨hword, hbit⟩ := nibble_halves_toNat (s.getReg .l)
  have hmem : (s.eaMem m).toNat = (s.mbDirect m).toNat * 256 + m.toNat := append_toNat _ _
  refine ⟨?mem, ?mem8, ?hl, ?hl8, ?de, ?dl, ?fmem, ?pmem, hbit, ?hmem⟩
  case mem => rw [hmem, mbDirect_toNat, Nat.mul_comm]
  case mem8 => rw [hmem, State.eaMem8, append_toNat, evenMem_toNat]; omega
  case hl => rw [State.eaHl, append_toNat, append_toNat, hind]; omega
  case hl8 => rw [State.eaHl8, append_toNat, append_toNat, hind, even_nibble_toNat]; omega
  case de => simp only [State.eaRpa1, append_toNat, BitVec.toNat_ofNat]; omega
  case dl => simp only [State.eaRpa1, append_toNat, BitVec.toNat_ofNat]; omega
  case fmem => rw [fmemAddr, append_toNat]; cases hi <;> rfl
  case pmem => simp only [State.pmemAddr, append_toNat, hword, BitVec.toNat_ofNat]; omega
  case hmem => rw [State.hmemAddr, append_toNat, append_toNat, hind]; omega

/-! ### Stores -/

/-- A property of every quadruple of a list, entry by entry. -/
theorem forall_quadruple_mem {α β γ δ : Type} (P : α → β → γ → δ → Prop) (l : List (α × β × γ × δ))
    (h : ∀ e ∈ l, P e.1 e.2.1 e.2.2.1 e.2.2.2) (a : α) (b : β) (c : γ) (d : δ) (hm : (a, b, c, d) ∈ l) : P a b c d :=
  h _ hm

/-- Settles O8: every form is `storeA` or `storeXa` at its address, and the 8-bit addresses are even. -/
theorem memoryStores : Obligations.memory_stores := by
  unfold Obligations.memory_stores
  intro s m n hInv
  constructor
  · intro i a c hm
    have hexec : exec i s = storeA a c s := by
      refine forall_triple_mem (fun i a c => exec i s = storeA a c s) _ ?_ i a c hm
      simp only [List.forall_mem_cons]
      exact ⟨rfl, rfl, rfl, List.forall_mem_nil _⟩
    rw [hexec]
    exact ⟨storeA_does s hInv.ram a c, fun ha u hu => storeA_io s u a c ha hu⟩
  · intro i a hm
    obtain ⟨hexec, heven⟩ : exec i s = storeXa a 2 s ∧ a.getLsbD 0 = false := by
      refine forall_pair_mem (fun i a => exec i s = storeXa a 2 s ∧ a.getLsbD 0 = false) _ ?_ i a hm
      simp only [List.forall_mem_cons]
      exact ⟨⟨rfl, eaHl8_even s⟩, ⟨rfl, eaMem8_even s m⟩, ⟨rfl, eaMem_even s 0xF4 rfl⟩, List.forall_mem_nil _⟩
    rw [hexec]
    exact ⟨storeXa_does s hInv.ram a 2 heven, fun ha u hu => storeXa_io s u a 2 ha hu⟩

/-- Settles O23: every form is `putBit` at its address and bit; in the peripheral area only the two excepted writes can be
refused (`ioWriteBit_goesThrough`). -/
theorem bitWrites : Obligations.bit_writes := by
  unfold Obligations.bit_writes
  intro s m hi f g d b hInv i a k v hm
  have hexec : exec i s = putBit a k v s := by
    refine forall_quadruple_mem (fun i a k v => exec i s = putBit a k v s) _ ?_ i a k v hm
    simp only [List.forall_mem_cons]
    exact ⟨rfl, rfl, rfl, rfl, rfl, rfl, rfl, rfl, rfl, rfl, rfl, List.forall_mem_nil _⟩
  rw [hexec]
  refine ⟨putBit_does s hInv.ram a k v, fun ha hok => ?_⟩
  obtain ⟨u, hu, -⟩ := ioWriteBit_goesThrough (s.touch a) hok
  exact ⟨u, hu, putBit_io s u a k v ha hu⟩

/-! ### Skips after a write of a peripheral register -/

/-- A meaning that may skip, from a state with the code of `s`: the write before it cannot change what is skipped over. -/
theorem SameCode.finishSkip_next {s x : State} (h : SameCode s x) (c : Nat) (k : Bool) (n : Nat)
    (hn : k = true → s.nextHas s.pc n) : x.finishSkip c k = .next ((x.after c).skipped k n) :=
  State.finishSkip_next x c k n fun hk => h.pc ▸ State.nextHas_congr h.rom h.chip _ (hn hk)

/-- INCS on a peripheral register, once the write has gone through. -/
theorem incsAt_io {s u : State} {a : DAddr} (n : Nat) (ha : isIo a = true)
    (hn : s.read4 a = 15 → s.nextHas s.pc n) (hu : (s.touch a).ioWrite4 a (s.read4 a + 1) = .next u) :
    incsAt a s = .next ((u.after 2).skipped (s.read4 a == 15) n) := by
  have hc : SameCode s u := ((SameCode.refl s).touch a).trans (ioWrite4_sameMemory hu).toSameCode
  rw [← State.write4_io _ _ _ ha] at hu
  have e : incsAt a s = u.finishSkip 2 (s.read4 a + 1 == 0) := by simp only [incsAt, hu, andThen_next]
  rw [e, succ_eq_zero_iff]
  exact hc.finishSkip_next 2 _ n fun hk => hn (eq_of_beq hk)

/-- Settles O19: both forms are `incsAt`, and a word becomes 0 from 15 alone. -/
theorem memoryIncrement : Obligations.memory_increment := by
  unfold Obligations.memory_increment
  intro s m n hInv i a hm
  have hexec : exec i s = incsAt a s := by
    refine forall_pair_mem (fun i a => exec i s = incsAt a s) _ ?_ i a hm
    simp only [List.forall_mem_cons]
    exact ⟨rfl, rfl, List.forall_mem_nil _⟩
  rw [hexec]
  refine ⟨fun ha hn => ?_, fun ha hn u hu => incsAt_io n ha hn hu⟩
  have hk := succ_eq_zero_iff (s.read4 a)
  rw [← hk]
  exact incsAt_does s hInv.ram a n ha fun h => hn (eq_of_beq (hk ▸ h))

/-- SKTCLR on a bit of a peripheral register that reads 1: clearing it goes through. -/
theorem testAndClear_io {s : State} {a : DAddr} {b : BitVec 2} {n : Nat} (hb : s.readBit a b = true)
    (hn : s.nextHas s.pc n) (ha : isIo a = true) :
    ∃ u, (s.touch a).ioWriteBit a b false = .next u ∧ testAndClear a b s = .next ((u.after 2).skipped true n) := by
  obtain ⟨u, hu, hc⟩ := ioWriteBit_false (s.touch a) a b
  refine ⟨u, hu, ?_⟩
  rw [testAndClear, if_pos hb, State.writeBit, if_pos ha, hu, andThen_next]
  exact (((SameCode.refl s).touch a).trans hc.toSameCode).finishSkip_next 2 true n fun _ => hn

/-- Settles O25: every form is `testAndClear`, by the value of the bit and the place of its word. -/
theorem sktclrTestAndClear : Obligations.test_and_clear := by
  unfold Obligations.test_and_clear
  intro s hi f g d b n hInv i a k hm
  have hexec : exec i s = testAndClear a k s := by
    refine forall_triple_mem (fun i a k => exec i s = testAndClear a k s) _ ?_ i a k hm
    simp only [List.forall_mem_cons]
    exact ⟨rfl, rfl, rfl, List.forall_mem_nil _⟩
  rw [hexec]
  exact ⟨testAndClear_zero s hInv.ram a k, testAndClear_one s hInv.ram a k n, testAndClear_io⟩

/-! ### `@HL+` and `@HL-` (R87) -/

/-- L after an access that leaves it `v`, and the skip: the end of an `@HL+` form as a whole state. -/
theorem stepUpL_next {s x : State} {b : BitVec 2} (hc : SameCode s x) {v : Nibble} (n : Nat)
    (hv : x.ramRead (regAddr b .l) = v) (hn : v = 15 → s.nextHas s.pc n) :
    stepUpL b x = .next (((x.setRegIn b .l (v + 1)).after 2).skipped (v == 15) n) := by
  rw [stepUpL, hv, succ_eq_zero_iff]
  exact (hc.setRegIn b .l _).finishSkip_next 2 _ n fun hk => hn (eq_of_beq hk)

/-- The same of an `@HL-` form. -/
theorem stepDownL_next {s x : State} {b : BitVec 2} (hc : SameCode s x) {v : Nibble} (n : Nat)
    (hv : x.ramRead (regAddr b .l) = v) (hn : v = 0 → s.nextHas s.pc n) :
    stepDownL b x = .next (((x.setRegIn b .l (v - 1)).after 2).skipped (v == 0) n) := by
  rw [stepDownL, hv, pred_eq_max_iff]
  exact (hc.setRegIn b .l _).finishSkip_next 2 _ n fun hk => hn (eq_of_beq hk)

/-- The exchange outside the peripheral area: the words it writes, and L as it leaves it. -/
theorem swapA_outside {s : State} {a : DAddr} (h : Memory.wf ramDefault ramSize s.ram = true) (ha : isIo a = false) :
    ∃ x, swapA a s = .next x ∧ SameButRam (s.touch a) x ∧
      Wrote s x (s.regWord .a (s.read4 a) :: ramWords a (s.getReg .a)) ∧
      wordAfter (s.regWord .a (s.read4 a) :: ramWords a (s.getReg .a)) s (regAddr s.regBank .l) =
        if a = regAddr s.regBank .l then s.getReg .a else s.getReg .l := by
  have hw := State.write4_outside (s.touch a) a (s.getReg .a) ha
  obtain ⟨x, hx, -, hl⟩ := swapA_next h hw
  have e := hx
  rw [swapA, hw, andThen_next] at e
  cases e
  have written := ((((Wrote.refl s h).touch a).ramWrite a (s.getReg .a)).cast (List.append_nil _)).reg s.regBank .a
    (s.read4 a)
  exact ⟨_, hx, ((SameButRam.refl _).ramWrite a _).setRegIn _ .a _, written, (written.words _).symm.trans hl⟩

/-- The exchange with a peripheral register, once the write has gone through: L is as before. -/
theorem swapA_io {s u : State} {a : DAddr} (h : Memory.wf ramDefault ramSize s.ram = true) (ha : isIo a = true)
    (hne : a ≠ regAddr s.regBank .l) (hu : (s.touch a).ioWrite4 a (s.getReg .a) = .next u) :
    swapA a s = .next (u.setRegIn s.regBank .a (s.read4 a)) ∧ SameCode s (u.setRegIn s.regBank .a (s.read4 a)) ∧
      (u.setRegIn s.regBank .a (s.read4 a)).ramRead (regAddr s.regBank .l) = s.getReg .l := by
  rw [← State.write4_io _ _ _ ha] at hu
  obtain ⟨x, hx, hc, hl⟩ := swapA_next h hu
  have e := hx
  rw [swapA, hu, andThen_next] at e
  cases e
  exact ⟨hx, hc, hl.trans (if_neg hne)⟩

/-- Settles O10: the access, then the step of L from what the access has left there. -/
theorem autoincrementTransfers : Obligations.autoincrement_transfers := by
  unfold Obligations.autoincrement_transfers
  intro s n hInv a l l'
  -- MOV: only A is written before L steps
  have loaded := ((Wrote.refl s hInv.ram).touch a).setReg rfl .a (s.read4 a)
  have same : SameButRam (s.touch a) ((s.touch a).setReg .a (s.read4 a)) := (SameButRam.refl _).setReg .a _
  have keepsL : wordAfter [s.regWord .a (s.read4 a)] s (regAddr s.regBank .l) = l :=
    (loaded.words _).symm.trans (ramRead_l_setReg_a hInv.ram _ a)
  refine ⟨stepUpL_does a l n same loaded keepsL, stepDownL_does a l n same loaded keepsL, fun ha hn => ?up,
    fun ha hn => ?down, fun ha u hu => ?io⟩
  case up =>
    obtain ⟨x, hx, hsame, hwrote, hl⟩ := swapA_outside hInv.ram ha
    show Does s (andThen (swapA a s) (stepUpL s.regBank)) _
    rw [hx]
    exact stepUpL_does a l' n hsame hwrote hl hn
  case down =>
    obtain ⟨x, hx, hsame, hwrote, hl⟩ := swapA_outside hInv.ram ha
    show Does s (andThen (swapA a s) (stepDownL s.regBank)) _
    rw [hx]
    exact stepDownL_does a l' n hsame hwrote hl hn
  case io =>
    obtain ⟨hx, hc, hl⟩ := swapA_io hInv.ram ha (eaHl_ne_l_of_isIo ha) hu
    exact ⟨fun hn => (congrArg (andThen · _) hx).trans (stepUpL_next hc n hl hn),
      fun hn => (congrArg (andThen · _) hx).trans (stepDownL_next hc n hl hn)⟩

/-! ### Words of the code tables -/

/-- Settles O1: the codes are closed terms, on which the decoder is run. -/
theorem decodeTableWords : Obligations.decode_table_words :=
  ⟨rfl, rfl, rfl, rfl, rfl, rfl, rfl, rfl, rfl, rfl, rfl, rfl, rfl, rfl, rfl, rfl, rfl, rfl, rfl, rfl, rfl⟩

end Sys2Proof.Machine
end

section
/-! Decoding and encoding (30_encoding.md R120 to R149): the decoder by the number of bytes it reads, the second bytes of the
bit-manipulation codes, the words of every instruction read back, and what the decoder answers. The statements
`decode_of_encode`, `encode_of_decode` and `first_byte_gives_length`. -/

namespace Sys2Proof

/-! ### One, two or three bytes -/

theorem decode_one {b : Byte} {i : Instr} (rest : List Byte) (h : decode1 b = some i) :
    decode (b :: rest) = .ok (i, rest) := by
  unfold decode
  simp only [h]

theorem decode_two {b1 b2 : Byte} {i : Instr} (rest : List Byte) (h1 : decode1 b1 = none)
    (h2 : decode2 b1 b2 = some i) : decode (b1 :: b2 :: rest) = .ok (i, rest) := by
  unfold decode
  simp only [h1, h2]

theorem decode_three {b1 b2 b3 : Byte} {i : Instr} (rest : List Byte) (h1 : decode1 b1 = none)
    (h2 : decode2 b1 b2 = none) (h3 : decode3 b1 b2 b3 = i) : decode (b1 :: b2 :: b3 :: rest) = .ok (i, rest) := by
  unfold decode
  simp only [h1, h2, h3]

/-- All that the decoder can answer. -/
theorem decode_cases {bytes rest : List Byte} {i : Instr} (h : decode bytes = .ok (i, rest)) :
    (∃ b1, bytes = [b1] ++ rest ∧ decode1 b1 = some i) ∨
    (∃ b1 b2, bytes = [b1, b2] ++ rest ∧ decode2 b1 b2 = some i) ∨
    (∃ b1 b2 b3, bytes = [b1, b2, b3] ++ rest ∧ decode3 b1 b2 b3 = i) := by
  unfold decode at h
  split at h
  · cases h
  · next b1 r1 =>
    split at h
    · next h1 => cases h; exact .inl ⟨b1, rfl, h1⟩
    · split at h
      · cases h
      · next b2 r2 =>
        split at h
        · next h2 => cases h; exact .inr (.inl ⟨b1, b2, rfl, h2⟩)
        · split at h
          · cases h
          · next b3 r3 => cases h; exact .inr (.inr ⟨b1, b2, b3, rfl, rfl⟩)

/-- The words of `i` are read as `i`, whatever bytes follow them. -/
def ReadsBack (i : Instr) : Prop := ∀ rest, decode (encode i ++ rest) = .ok (i, rest)

theorem readsBack_one {i : Instr} {b : Byte} (he : encode i = [b]) (h : decode1 b = some i) : ReadsBack i :=
  fun rest => he ▸ decode_one rest h

theorem readsBack_two {i : Instr} {b1 b2 : Byte} (he : encode i = [b1, b2]) (h1 : decode1 b1 = none)
    (h2 : decode2 b1 b2 = some i) : ReadsBack i :=
  fun rest => he ▸ decode_two rest h1 h2

theorem readsBack_three {i : Instr} {b1 b2 b3 : Byte} (he : encode i = [b1, b2, b3]) (h1 : decode1 b1 = none)
    (h2 : decode2 b1 b2 = none) (h3 : decode3 b1 b2 b3 = i) : ReadsBack i :=
  fun rest => he ▸ decode_three rest h1 h2 h3

/-- `i` is a well-formed instruction with a code of its own, of `n` bytes. -/
def hasCode (i : Instr) (n : Nat) : Bool := i.wf && !i.isPseudo && (encode i).length == n

theorem hasCode_iff (i : Instr) (n : Nat) :
    hasCode i n = true ↔ i.wf = true ∧ i.isPseudo = false ∧ (encode i).length = n := by
  simp only [hasCode, Bool.and_eq_true, Bool.not_eq_true', beq_iff_eq, and_assoc]

/-- An unassigned code of two bytes stands for itself (R148). -/
theorem unassigned_hasCode {b1 b2 : Byte} (h : unassignedSecond b1 b2 = true) :
    hasCode (.unassigned b1 (some b2)) 2 = true := (hasCode_iff _ _).mpr ⟨h, rfl, rfl⟩

/-! ### The bit-manipulation codes (R144) -/

/-- The second byte of `fmem.bit` is no unassigned one (R148), and the decoder finds the operands in it. -/
theorem fmemByte_fields (hi : Bool) (f : Nibble) (b : BitVec 2) :
    let m := fmemByte hi f b
    (0x50 ≤ m && m ≤ 0x7F) = false ∧ m.getLsbD 7 = true ∧ m.getLsbD 6 = hi ∧ m.extractLsb' 0 4 = f ∧
      m.extractLsb' 4 2 = b := by
  revert hi f b
  decide

theorem pmemByte_fields (g : Nibble) :
    let m := pmemByte g
    (0x50 ≤ m && m ≤ 0x7F) = false ∧ m.getLsbD 7 = false ∧ m.getLsbD 6 = true ∧ m.extractLsb' 0 4 = g := by
  revert g
  decide

theorem hmemByte_fields (d : Nibble) (b : BitVec 2) :
    let m := hmemByte d b
    (0x50 ≤ m && m ≤ 0x7F) = false ∧ m.getLsbD 7 = false ∧ m.getLsbD 6 = false ∧ m.extractLsb' 0 4 = d ∧
      m.extractLsb' 4 2 = b := by
  revert d b
  decide

/-- After the first byte `b1`, the three operand forms are `F` of `fmem.bit`, `P` of `pmem.@L` and `H` of `@H+mem.bit`. -/
structure BitForms (b1 : Byte) (F : Bool → Nibble → BitVec 2 → Instr) (P : Nibble → Instr)
    (H : Nibble → BitVec 2 → Instr) : Prop where
  long : decode1 b1 = none
  first : bitFirst b1 = true
  second : ∀ b2, decodeBit b1 b2 =
    if 0x50 ≤ b2 && b2 ≤ 0x7F then .unassigned b1 (some b2) else decodeBitForm F P H b2

theorem mov1To_forms : BitForms 0x9B .mov1ToFmem .mov1ToPmem .mov1ToHmem := ⟨rfl, rfl, fun _ => rfl⟩
theorem clr1_forms : BitForms 0x9C decodeClr1 .clr1Pmem .clr1Hmem := ⟨rfl, rfl, fun _ => rfl⟩
theorem set1_forms : BitForms 0x9D decodeSet1 .set1Pmem .set1Hmem := ⟨rfl, rfl, fun _ => rfl⟩
theorem sktclr_forms : BitForms 0x9F .sktclrFmem .sktclrPmem .sktclrHmem := ⟨rfl, rfl, fun _ => rfl⟩
theorem and1_forms : BitForms 0xAC .and1Fmem .and1Pmem .and1Hmem := ⟨rfl, rfl, fun _ => rfl⟩
theorem or1_forms : BitForms 0xAE .or1Fmem .or1Pmem .or1Hmem := ⟨rfl, rfl, fun _ => rfl⟩
theorem xor1_forms : BitForms 0xBC .xor1Fmem .xor1Pmem .xor1Hmem := ⟨rfl, rfl, fun _ => rfl⟩
theorem mov1Cy_forms : BitForms 0xBD .mov1CyFmem .mov1CyPmem .mov1CyHmem := ⟨rfl, rfl, fun _ => rfl⟩
theorem skf_forms : BitForms 0xBE .skfFmem .skfPmem .skfHmem := ⟨rfl, rfl, fun _ => rfl⟩
theorem skt_forms : BitForms 0xBF .sktFmem .sktPmem .sktHmem := ⟨rfl, rfl, fun _ => rfl⟩

theorem decode2_bit {b1 : Byte} (h : bitFirst b1 = true) (b2 : Byte) : decode2 b1 b2 = some (decodeBit b1 b2) := by
  unfold decode2
  simp only [h, if_true]

namespace BitForms

variable {b1 : Byte} {F : Bool → Nibble → BitVec 2 → Instr} {P : Nibble → Instr} {H : Nibble → BitVec 2 → Instr}

theorem readsBack {i : Instr} {b2 : Byte} (h : BitForms b1 F P H) (he : encode i = [b1, b2])
    (hole : (0x50 ≤ b2 && b2 ≤ 0x7F) = false) (hi : decodeBitForm F P H b2 = i) : ReadsBack i := by
  refine readsBack_two he h.long ?_
  rw [decode2_bit h.first, h.second, hole, ← hi]
  rfl

theorem fmem {i : Instr} (h : BitForms b1 F P H) (hi : Bool) (f : Nibble) (b : BitVec 2)
    (he : encode i = [b1, fmemByte hi f b]) (hF : F hi f b = i) : ReadsBack i := by
  obtain ⟨hole, h7, h6, hf, hb⟩ := fmemByte_fields hi f b
  refine h.readsBack he hole ?_
  simp only [decodeBitForm, h7, h6, hf, hb, hF, if_true]

theorem pmem (h : BitForms b1 F P H) (g : Nibble) (he : encode (P g) = [b1, pmemByte g]) : ReadsBack (P g) := by
  obtain ⟨hole, h7, h6, hg⟩ := pmemByte_fields g
  refine h.readsBack he hole ?_
  simp only [decodeBitForm, h7, h6, hg, if_true, Bool.false_eq_true, if_false]

theorem hmem (h : BitForms b1 F P H) (d : Nibble) (b : BitVec 2) (he : encode (H d b) = [b1, hmemByte d b]) :
    ReadsBack (H d b) := by
  obtain ⟨hole, h7, h6, hd, hb⟩ := hmemByte_fields d b
  refine h.readsBack he hole ?_
  simp only [decodeBitForm, h7, h6, hd, hb, Bool.false_eq_true, if_false]

/-- Where its three forms have codes, so has every answer. -/
theorem hasCode (h : BitForms b1 F P H) (hF : ∀ hi f b, hasCode (F hi f b) 2 = true) (hP : ∀ g, hasCode (P g) 2 = true)
    (hH : ∀ d b, hasCode (H d b) 2 = true) (b2 : Byte) : hasCode (decodeBit b1 b2) 2 = true := by
  rw [h.second]
  split
  · next hole =>
    refine unassigned_hasCode ?_
    simp only [unassignedSecond, h.first, Bool.true_and, hole, Bool.or_true, Bool.true_or]
  · unfold decodeBitForm
    dsimp only
    split
    · exact hF _ _ _
    · split
      · exact hP _
      · exact hH _ _

end BitForms

/-- An operand of SET1 with no other spelling (R146, R147). -/
theorem decodeSet1_plain {hi : Bool} {f : Nibble} {b : BitVec 2} (h : (Instr.set1Fmem hi f b).wf = true) :
    decodeSet1 hi f b = .set1Fmem hi f b := by
  revert hi f b
  decide

theorem decodeClr1_plain {hi : Bool} {f : Nibble} {b : BitVec 2} (h : (Instr.clr1Fmem hi f b).wf = true) :
    decodeClr1 hi f b = .clr1Fmem hi f b := by
  revert hi f b
  decide

/-! ### Second bytes by their first byte -/

theorem decode2_movMemXa (m : Byte) :
    decode2 0x92 m = if evenMem m == 0xF4 then some .outPortXa else some (.movMemXa (evenMem m)) := rfl

theorem decode2_movMemA (m : Byte) :
    decode2 0x93 m = if outPortMem m then some (.outPortA (m.extractLsb' 0 4)) else some (.movMemA m) := rfl

theorem decode2_movXaMem (m : Byte) :
    decode2 0xA2 m = if evenMem m == 0xF4 then some .inXaPort else some (.movXaMem (evenMem m)) := rfl

theorem decode2_movAMem (m : Byte) :
    decode2 0xA3 m = if inPortMem m then some (.inAPort (m.extractLsb' 0 4)) else some (.movAMem m) := rfl

theorem decode2_xchXaMem (m : Byte) : decode2 0xB2 m = some (.xchXaMem (evenMem m)) := rfl

/-- Bit 0 of an 8-bit `mem` is ignored (R137, D7): nothing is lost of an even one, and what is left is even. -/
theorem evenMem_of_even {m : Byte} (h : m.getLsbD 0 = false) : evenMem m = m := by
  revert m
  decide

/-- The operands of `MOV XA,mem` and `MOV mem,XA`: even, and not the F4H of `IN XA,PORT4` and `OUT PORT4,XA`. -/
theorem evenMem_fixed {m : Byte} (h : (!m.getLsbD 0 && m != 0xF4) = true) : evenMem m = m ∧ (m == 0xF4) = false := by
  simp only [Bool.and_eq_true, Bool.not_eq_true', bne] at h
  obtain ⟨heven, hport⟩ := h
  exact ⟨evenMem_of_even heven, hport⟩

theorem evenMem_even (m : Byte) : (evenMem m).getLsbD 0 = false := by
  revert m
  decide

/-- ABH, BAH and BBH need a third byte unless bit 7 of the second is set (R127, R148). -/
theorem decode2_long {b1 : Byte} (h : b1 = 0xAB ∨ b1 = 0xBA ∨ b1 = 0xBB) (b2 : Byte) :
    decode1 b1 = none ∧ decode2 b1 b2 = if b2.getLsbD 7 then some (.unassigned b1 (some b2)) else none := by
  rcases h with rfl | rfl | rfl <;> exact ⟨rfl, rfl⟩

theorem decode3_ab (b2 b3 : Byte) :
    decode3 0xAB b2 b3 = if b2.getLsbD 6 then .call (b2.extractLsb' 0 6 ++ b3) else .br (b2.extractLsb' 0 6 ++ b3) := rfl

theorem decode3_ba (b2 b3 : Byte) : decode3 0xBA b2 b3 = .bra (b2.extractLsb' 0 7 ++ b3) := rfl

theorem decode3_bb (b2 b3 : Byte) : decode3 0xBB b2 b3 = .calla (b2.extractLsb' 0 7 ++ b3) := rfl

theorem long_readsBack {i : Instr} {b1 b2 b3 : Byte} (he : encode i = [b1, b2, b3])
    (hb : b1 = 0xAB ∨ b1 = 0xBA ∨ b1 = 0xBB) (h7 : b2.getLsbD 7 = false) (h3 : decode3 b1 b2 b3 = i) : ReadsBack i := by
  obtain ⟨e1, e2⟩ := decode2_long hb b2
  exact readsBack_three he e1 (e2.trans (if_neg (ne_true_of_eq_false h7))) h3

/-- 40H-47H and 50H-5FH, the codes with an address of 11 and of 12 bits (R123). -/
theorem decode2_page {b1 : Byte} (h : 0x40 ≤ b1.toNat ∧ b1.toNat < 0x60) (b2 : Byte) :
    decode2 b1 b2 =
      if (b1.extractLsb' 4 4).toNat = 4 then some (.callf ((b1.extractLsb' 0 3 : BitVec 3) ++ b2))
      else some (.brcb ((b1.extractLsb' 0 4 : BitVec 4) ++ b2)) := by
  have hb : bitFirst b1 = false := by revert b1; decide
  unfold decode2
  simp only [hb, Bool.false_eq_true, if_false]
  split
  any_goals omega
  rfl

/-- A bit-manipulation code has a second byte. -/
theorem decode1_bit {b1 : Byte} (h : bitFirst b1 = true) : decode1 b1 = none := by
  revert b1
  decide

/-- An address as the two bytes it is written in. -/
theorem high_append_low {w : Nat} (t : BitVec (w + 8)) : t.extractLsb' 8 w ++ t.extractLsb' 0 8 = t := by
  ext k hk
  simp

theorem bitNumber_cases (b : BitVec 2) : b = 0 ∨ b = 1 ∨ b = 2 ∨ b = 3 := by
  revert b
  decide

/-! ### The words of every instruction -/

/-- The first byte of CALLF holds three bits of its address, that of BRCB four (R123). -/
theorem callf_readsBack (t : BitVec 11) : ReadsBack (.callf t) := by
  have first : ∀ k : BitVec 3, decode1 (8#5 ++ k) = none ∧ 0x40 ≤ (8#5 ++ k).toNat ∧ (8#5 ++ k).toNat < 0x60 ∧
      ((8#5 ++ k).extractLsb' 4 4).toNat = 4 ∧ (8#5 ++ k).extractLsb' 0 3 = k := by decide
  obtain ⟨h1, hlo, hhi, h4, hk⟩ := first (t.extractLsb' 8 3)
  refine readsBack_two rfl h1 ?_
  rw [decode2_page ⟨hlo, hhi⟩, if_pos h4, hk, high_append_low (w := 3) t]

theorem brcb_readsBack (t : BitVec 12) : ReadsBack (.brcb t) := by
  have first : ∀ k : Nibble, decode1 (byteOf 5 k) = none ∧ 0x40 ≤ (byteOf 5 k).toNat ∧ (byteOf 5 k).toNat < 0x60 ∧
      ((byteOf 5 k).extractLsb' 4 4).toNat ≠ 4 ∧ (byteOf 5 k).extractLsb' 0 4 = k := by decide
  obtain ⟨h1, hlo, hhi, h4, hk⟩ := first (t.extractLsb' 8 4)
  refine readsBack_two rfl h1 ?_
  rw [decode2_page ⟨hlo, hhi⟩, if_neg h4, hk, high_append_low (w := 4) t]

/-- BR and CALL: after ABH two bits of code and fourteen of address (R127). -/
theorem br_readsBack (t : BitVec 14) : ReadsBack (.br t) := by
  have second : ∀ k : BitVec 6, (0#2 ++ k).getLsbD 7 = false ∧ (0#2 ++ k).getLsbD 6 = false ∧
      (0#2 ++ k).extractLsb' 0 6 = k := by decide
  obtain ⟨h7, h6, hk⟩ := second (t.extractLsb' 8 6)
  refine long_readsBack rfl (.inl rfl) h7 ?_
  rw [decode3_ab, if_neg (ne_true_of_eq_false h6), hk, high_append_low (w := 6) t]

theorem call_readsBack (t : BitVec 14) : ReadsBack (.call t) := by
  have second : ∀ k : BitVec 6, (1#2 ++ k).getLsbD 7 = false ∧ (1#2 ++ k).getLsbD 6 = true ∧
      (1#2 ++ k).extractLsb' 0 6 = k := by decide
  obtain ⟨h7, h6, hk⟩ := second (t.extractLsb' 8 6)
  refine long_readsBack rfl (.inl rfl) h7 ?_
  rw [decode3_ab, if_pos h6, hk, high_append_low (w := 6) t]

/-- BRA and CALLA: after BAH or BBH one bit of code and fifteen of address (R127). -/
theorem address15_fields (k : BitVec 7) : (0#1 ++ k).getLsbD 7 = false ∧ (0#1 ++ k).extractLsb' 0 7 = k := by
  revert k
  decide

theorem bra_readsBack (t : BitVec 15) : ReadsBack (.bra t) := by
  obtain ⟨h7, hk⟩ := address15_fields (t.extractLsb' 8 7)
  refine long_readsBack rfl (.inr (.inl rfl)) h7 ?_
  rw [decode3_ba, hk, high_append_low (w := 7) t]

theorem calla_readsBack (t : BitVec 15) : ReadsBack (.calla t) := by
  obtain ⟨h7, hk⟩ := address15_fields (t.extractLsb' 8 7)
  refine long_readsBack rfl (.inr (.inr rfl)) h7 ?_
  rw [decode3_bb, hk, high_append_low (w := 7) t]

theorem unassigned_readsBack {b1 : Byte} {b2 : Option Byte} (h : (Instr.unassigned b1 b2).wf = true) :
    ReadsBack (.unassigned b1 b2) := by
  cases b2 with
  | none =>
    have hb : unassignedFirst b1 = true := h
    refine readsBack_one rfl ?_
    unfold decode1
    simp only [hb, if_true]
  | some b2 =>
    have hs : unassignedSecond b1 b2 = true := h
    clear h
    simp only [unassignedSecond, Bool.or_eq_true, Bool.and_eq_true, beq_iff_eq] at hs
    obtain (((⟨rfl, h⟩ | ⟨rfl, h⟩) | ⟨rfl, h⟩) | ⟨⟨hb, hlo⟩, hhi⟩) | ⟨hb, h⟩ := hs
    · exact readsBack_two rfl rfl (congrArg some (if_pos h))
    · exact readsBack_two rfl rfl (congrArg some (if_pos h))
    · exact readsBack_two rfl rfl (congrArg some (if_pos h))
    · refine readsBack_two rfl (decode1_bit hb) ((decode2_bit hb b2).trans (congrArg some ?_))
      exact if_pos (by simp only [hlo, hhi, Bool.and_self])
    · have h7 : b2.getLsbD 7 = true := by clear hb; revert b2; decide
      obtain ⟨e1, e2⟩ := decode2_long (by simpa only [or_assoc] using hb) b2
      exact readsBack_two rfl e1 (e2.trans (if_pos h7))

/-- Every well-formed instruction with a code of its own is read back, family by family of the code tables. -/
theorem readsBack_of_wf (i : Instr) (hw : i.wf = true) (hp : i.isPseudo = false) : ReadsBack i := by
  cases i with
  -- one byte (R123): without an operand, with four or five bits of it, with a register or a pair
  | movAHl | movAHlInc | movAHlDec | movHlA | xchAHl | xchAHlInc | xchAHlDec | movtPcde | movtPcxa | movtBcde | movtBcxa
  | addsAHl | addcAHl | subsAHl | subcAHl | andAHl | orAHl | xorAHl | rorcA | skeAHl | set1Cy | clr1Cy | sktCy | not1Cy
  | ret | rets | reti | nop => exact readsBack_one rfl rfl
  | movAImm n | addsAImm n | brFwd n | brBwd n | getiLow n | getiHigh n => exact readsBack_one rfl (by revert n; decide)
  | movARpa1 q | xchARpa1 q => cases q <;> exact readsBack_one rfl rfl
  | incsReg r | decsReg r => cases r <;> exact readsBack_one rfl rfl
  | pushRp p | popRp p => cases p <;> exact readsBack_one rfl rfl
  | xchAReg1 r =>
    cases r with
    | a => cases hw
    | _ => exact readsBack_one rfl rfl
  | incsRp1 p =>
    cases p with
    | xa => cases hw
    | _ => exact readsBack_one rfl rfl
  -- a byte of operand after the code (R123)
  | movXaImm | movHlImm | addsXaImm | xchAMem | incsMem => exact readsBack_two rfl rfl rfl
  | movRp2Imm p =>
    cases p with
    | xa | hl => cases hw
    | de | bc => exact readsBack_two rfl rfl rfl
  -- a direct address that has no other spelling (R147), an even one in the 8-bit forms (R137)
  | movAMem m =>
    have hport : inPortMem m = false := by simpa only [Instr.wf, Bool.not_eq_true'] using hw
    exact readsBack_two rfl rfl (by rw [decode2_movAMem, hport, if_neg Bool.false_ne_true])
  | movMemA m =>
    have hport : outPortMem m = false := by simpa only [Instr.wf, Bool.not_eq_true'] using hw
    exact readsBack_two rfl rfl (by rw [decode2_movMemA, hport, if_neg Bool.false_ne_true])
  | movXaMem m =>
    obtain ⟨heven, hport⟩ := evenMem_fixed hw
    exact readsBack_two rfl rfl (by rw [decode2_movXaMem, heven, hport, if_neg Bool.false_ne_true])
  | movMemXa m =>
    obtain ⟨heven, hport⟩ := evenMem_fixed hw
    exact readsBack_two rfl rfl (by rw [decode2_movMemXa, heven, hport, if_neg Bool.false_ne_true])
  | xchXaMem m =>
    have heven : m.getLsbD 0 = false := by simpa only [Instr.wf, Bool.not_eq_true'] using hw
    exact readsBack_two rfl rfl (by rw [decode2_xchXaMem, evenMem_of_even heven])
  | inAPort n | outPortA n => exact readsBack_two rfl rfl (by revert n; decide)
  | inXaPort | outPortXa => exact readsBack_two rfl rfl rfl
  | set1Mem m b | clr1Mem m b | sktMem m b | skfMem m b =>
    obtain rfl | rfl | rfl | rfl := bitNumber_cases b <;> exact readsBack_two rfl rfl rfl
  | brcb t => exact brcb_readsBack t
  | callf t => exact callf_readsBack t
  -- 99H (R124)
  | incsHl | brPcde | brPcxa | brBcde | brBcxa | pushBs | popBs | notA => exact readsBack_two rfl rfl rfl
  | andAImm n | orAImm n | xorAImm n | skeHlImm n | selRb n | selMb n => exact readsBack_two rfl rfl (by revert n; decide)
  | movAReg r | skeAReg r => cases r <;> exact readsBack_two rfl rfl rfl
  | movReg1A r =>
    cases r with
    | a => cases hw
    | _ => exact readsBack_two rfl rfl rfl
  -- 9AH (R125)
  | skeRegImm r n => exact readsBack_two rfl rfl (by cases r <;> (revert n; decide))
  | movReg1Imm r n => exact readsBack_two rfl rfl (by cases r <;> (revert n; decide))
  -- AAH (R126)
  | movXaHl | movHlXa | xchXaHl | skeXaHl => exact readsBack_two rfl rfl rfl
  | movXaRp p | xchXaRp p | addsXaRp p | addcXaRp p | subsXaRp p | subcXaRp p | andXaRp p | orXaRp p | xorXaRp p | decsRp p
  | skeXaRp p => cases p <;> exact readsBack_two rfl rfl rfl
  | movRpXa p | addsRpXa p | addcRpXa p | subsRpXa p | subcRpXa p | andRpXa p | orRpXa p | xorRpXa p =>
    cases p with
    | xa => cases hw
    | _ => exact readsBack_two rfl rfl rfl
  -- bit manipulation (R144)
  | mov1CyFmem hi f b => exact mov1Cy_forms.fmem hi f b rfl rfl
  | mov1CyPmem g => exact mov1Cy_forms.pmem g rfl
  | mov1CyHmem d b => exact mov1Cy_forms.hmem d b rfl
  | mov1ToFmem hi f b => exact mov1To_forms.fmem hi f b rfl rfl
  | mov1ToPmem g => exact mov1To_forms.pmem g rfl
  | mov1ToHmem d b => exact mov1To_forms.hmem d b rfl
  | set1Fmem hi f b => exact set1_forms.fmem hi f b rfl (decodeSet1_plain hw)
  | set1Pmem g => exact set1_forms.pmem g rfl
  | set1Hmem d b => exact set1_forms.hmem d b rfl
  | clr1Fmem hi f b => exact clr1_forms.fmem hi f b rfl (decodeClr1_plain hw)
  | clr1Pmem g => exact clr1_forms.pmem g rfl
  | clr1Hmem d b => exact clr1_forms.hmem d b rfl
  | sktFmem hi f b => exact skt_forms.fmem hi f b rfl rfl
  | sktPmem g => exact skt_forms.pmem g rfl
  | sktHmem d b => exact skt_forms.hmem d b rfl
  | skfFmem hi f b => exact skf_forms.fmem hi f b rfl rfl
  | skfPmem g => exact skf_forms.pmem g rfl
  | skfHmem d b => exact skf_forms.hmem d b rfl
  | sktclrFmem hi f b => exact sktclr_forms.fmem hi f b rfl rfl
  | sktclrPmem g => exact sktclr_forms.pmem g rfl
  | sktclrHmem d b => exact sktclr_forms.hmem d b rfl
  | and1Fmem hi f b => exact and1_forms.fmem hi f b rfl rfl
  | and1Pmem g => exact and1_forms.pmem g rfl
  | and1Hmem d b => exact and1_forms.hmem d b rfl
  | or1Fmem hi f b => exact or1_forms.fmem hi f b rfl rfl
  | or1Pmem g => exact or1_forms.pmem g rfl
  | or1Hmem d b => exact or1_forms.hmem d b rfl
  | xor1Fmem hi f b => exact xor1_forms.fmem hi f b rfl rfl
  | xor1Pmem g => exact xor1_forms.pmem g rfl
  | xor1Hmem d b => exact xor1_forms.hmem d b rfl
  | ei | di | eiIeBt | eiIeW | eiIeT0 | eiIeCsi | eiIe0 | eiIe2 | eiIe4 | eiIeT1 | eiIe1 | diIeBt | diIeW | diIeT0 | diIeCsi
  | diIe0 | diIe2 | diIe4 | diIeT1 | diIe1 | halt | stop => exact readsBack_two rfl rfl rfl
  -- three bytes (R127)
  | br t => exact br_readsBack t
  | call t => exact call_readsBack t
  | bra t => exact bra_readsBack t
  | calla t => exact calla_readsBack t
  -- no code of its own (R330, R331, R332, R348); no instruction (R148)
  | brAuto | brAuto1 | tbr | tcall => cases hp
  | unassigned => exact unassigned_readsBack hw

/-- Settles O2: each constructor's words are looked up again by `readsBack_of_wf`. -/
theorem decodeOfEncode : Obligations.decode_of_encode := by
  unfold Obligations.decode_of_encode
  exact fun i rest hw hp => readsBack_of_wf i hw hp rest

/-! ### What the decoder answers

The tables of one operand byte are finite, and are run through; the others are taken apart by their forms. -/

theorem decode1_hasCode : ∀ b, ∀ i ∈ decode1 b, hasCode i 1 = true := by decide

theorem decode99_hasCode : ∀ b, hasCode (decode99 b) 2 = true := by decide

theorem decode9A_hasCode : ∀ b, hasCode (decode9A b) 2 = true := by decide

theorem decodeAA_hasCode : ∀ b, hasCode (decodeAA b) 2 = true := by decide

theorem decodeSet1_hasCode : ∀ hi f b, hasCode (decodeSet1 hi f b) 2 = true := by decide

theorem decodeClr1_hasCode : ∀ hi f b, hasCode (decodeClr1 hi f b) 2 = true := by decide

/-- An answer that depends on how an operand is spelled (R147). -/
theorem hasCode_of_ite {c : Prop} [Decidable c] {x y i : Instr} {n : Nat} (h : (if c then some x else some y) = some i)
    (hx : c → hasCode x n = true) (hy : ¬c → hasCode y n = true) : hasCode i n = true := by
  split at h
  · next hc => cases h; exact hx hc
  · next hc => cases h; exact hy hc

/-- A direct address that is not spelled as a port (R147). -/
theorem mem_hasCode (m : Byte) : (¬inPortMem m = true → hasCode (.movAMem m) 2 = true) ∧
    (¬outPortMem m = true → hasCode (.movMemA m) 2 = true) :=
  ⟨fun h => (hasCode_iff _ _).mpr ⟨(Bool.not_eq_true' _).mpr (Bool.eq_false_iff.mpr h), rfl, rfl⟩,
    fun h => (hasCode_iff _ _).mpr ⟨(Bool.not_eq_true' _).mpr (Bool.eq_false_iff.mpr h), rfl, rfl⟩⟩

/-- A port number that the decoder takes from an address is one of those allowed (R386, R388). -/
theorem port_hasCode (m : Byte) : (inPortMem m = true → hasCode (.inAPort (m.extractLsb' 0 4)) 2 = true) ∧
    (outPortMem m = true → hasCode (.outPortA (m.extractLsb' 0 4)) 2 = true) := by
  simp only [inPortMem, outPortMem, Bool.and_eq_true]
  exact ⟨fun h => (hasCode_iff _ _).mpr ⟨h.2, rfl, rfl⟩, fun h => (hasCode_iff _ _).mpr ⟨h.2, rfl, rfl⟩⟩

/-- The 8-bit forms answer an even address (R137), without the one of the ports 4 and 5 where that has its own spelling. -/
theorem evenMem_hasCode (m : Byte) : hasCode (.xchXaMem (evenMem m)) 2 = true ∧
    (¬(evenMem m == 0xF4) = true → hasCode (.movXaMem (evenMem m)) 2 = true ∧ hasCode (.movMemXa (evenMem m)) 2 = true) := by
  have heven := evenMem_even m
  refine ⟨(hasCode_iff _ _).mpr ⟨(Bool.not_eq_true' _).mpr heven, rfl, rfl⟩, fun h => ?_⟩
  have hw : (!(evenMem m).getLsbD 0 && evenMem m != 0xF4) = true := by
    rw [heven, bne, Bool.eq_false_iff.mpr h]
    rfl
  exact ⟨(hasCode_iff _ _).mpr ⟨hw, rfl, rfl⟩, (hasCode_iff _ _).mpr ⟨hw, rfl, rfl⟩⟩

theorem decodeBit_hasCode {b1 : Byte} (h : bitFirst b1 = true) (b2 : Byte) : hasCode (decodeBit b1 b2) 2 = true := by
  simp only [bitFirst, Bool.or_eq_true, beq_iff_eq, or_assoc] at h
  obtain rfl | rfl | rfl | rfl | rfl | rfl | rfl | rfl | rfl | rfl := h
  · exact mov1To_forms.hasCode (fun _ _ _ => rfl) (fun _ => rfl) (fun _ _ => rfl) b2
  · exact clr1_forms.hasCode decodeClr1_hasCode (fun _ => rfl) (fun _ _ => rfl) b2
  · exact set1_forms.hasCode decodeSet1_hasCode (fun _ => rfl) (fun _ _ => rfl) b2
  · exact sktclr_forms.hasCode (fun _ _ _ => rfl) (fun _ => rfl) (fun _ _ => rfl) b2
  · exact and1_forms.hasCode (fun _ _ _ => rfl) (fun _ => rfl) (fun _ _ => rfl) b2
  · exact or1_forms.hasCode (fun _ _ _ => rfl) (fun _ => rfl) (fun _ _ => rfl) b2
  · exact xor1_forms.hasCode (fun _ _ _ => rfl) (fun _ => rfl) (fun _ _ => rfl) b2
  · exact mov1Cy_forms.hasCode (fun _ _ _ => rfl) (fun _ => rfl) (fun _ _ => rfl) b2
  · exact skf_forms.hasCode (fun _ _ _ => rfl) (fun _ => rfl) (fun _ _ => rfl) b2
  · exact skt_forms.hasCode (fun _ _ _ => rfl) (fun _ => rfl) (fun _ _ => rfl) b2

theorem long_hasCode {b1 b2 : Byte} {i : Instr} (hb : b1 = 0xAB ∨ b1 = 0xBA ∨ b1 = 0xBB) (h : decode2 b1 b2 = some i) :
    hasCode i 2 = true := by
  rw [(decode2_long hb b2).2] at h
  split at h
  · next h7 =>
    cases h
    have h80 : 0x80 ≤ b2 := by clear hb; revert b2; decide
    refine unassigned_hasCode ?_
    simp only [unassignedSecond, Bool.or_eq_true, Bool.and_eq_true, beq_iff_eq, decide_eq_true_eq, or_assoc]
    exact .inr (.inr (.inr (.inr ⟨hb, h80⟩)))
  · cases h

theorem decode2_hasCode {b1 b2 : Byte} {i : Instr} (h : decode2 b1 b2 = some i) : hasCode i 2 = true := by
  have he := h
  unfold decode2 at h
  dsimp only at h
  split at h
  · next hb => cases h; exact decodeBit_hasCode hb b2
  · split at h
    -- the forms that may have any operand byte
    any_goals (cases h; rfl)
    · exact hasCode_of_ite h (fun _ => rfl) fun hp => ((evenMem_hasCode b2).2 hp).2
    · exact hasCode_of_ite h (port_hasCode b2).2 (mem_hasCode b2).2
    · cases h; exact decode99_hasCode b2
    · cases h; exact decode9A_hasCode b2
    · exact hasCode_of_ite h (fun _ => rfl) fun hp => ((evenMem_hasCode b2).2 hp).1
    · exact hasCode_of_ite h (port_hasCode b2).1 (mem_hasCode b2).1
    · cases h; exact decodeAA_hasCode b2
    · next e => exact long_hasCode (.inl (BitVec.eq_of_toNat_eq e)) he
    · next e => exact long_hasCode (.inr (.inl (BitVec.eq_of_toNat_eq e))) he
    · next e => exact long_hasCode (.inr (.inr (BitVec.eq_of_toNat_eq e))) he
    · cases h; exact (evenMem_hasCode b2).1
    · exact hasCode_of_ite h (fun _ => rfl) (fun _ => rfl)

theorem decode3_hasCode (b1 b2 b3 : Byte) : hasCode (decode3 b1 b2 b3) 3 = true := by
  unfold decode3
  split
  · dsimp only
    split <;> rfl
  · dsimp only
    split <;> rfl

/-- Every answer is an instruction with a code, as long as the bytes it was read from. -/
theorem decode_hasCode {bytes rest : List Byte} {i : Instr} (h : decode bytes = .ok (i, rest)) :
    ∃ pre, bytes = pre ++ rest ∧ hasCode i pre.length = true := by
  obtain ⟨b1, rfl, e⟩ | ⟨b1, b2, rfl, e⟩ | ⟨b1, b2, b3, rfl, rfl⟩ := decode_cases h
  · exact ⟨[b1], rfl, decode1_hasCode b1 i e⟩
  · exact ⟨[b1, b2], rfl, decode2_hasCode e⟩
  · exact ⟨[b1, b2, b3], rfl, decode3_hasCode b1 b2 b3⟩

/-- Settles O3: what is answered has a code (`decode_hasCode`), and that code is read back (`readsBack_of_wf`). -/
theorem encodeOfDecode : Obligations.encode_of_decode := by
  unfold Obligations.encode_of_decode
  intro bytes rest i h
  obtain ⟨pre, hpre, hc⟩ := decode_hasCode h
  obtain ⟨hw, hp, hl⟩ := (hasCode_iff _ _).mp hc
  have back := readsBack_of_wf i hw hp []
  rw [List.append_nil] at back
  exact ⟨hw, hp, back, pre, hpre, hl.symm⟩

/-! ### The length by the first byte (R122) -/

/-- Refutes O4: ABH asks for three bytes, but with bit 7 of the second set the code is unassigned (R148) and the decoder
answers after two. -/
theorem not_firstByteGivesLength : ¬ Obligations.first_byte_gives_length := by
  unfold Obligations.first_byte_gives_length
  intro h
  obtain ⟨i, hi⟩ := h 0xAB 3 [0x80, 0x00] rfl (by decide)
  have answer : decode [0xAB, 0x80, 0x00] = .ok (.unassigned 0xAB (some 0x80), [0x00]) := rfl
  rw [answer] at hi
  cases hi

end Sys2Proof
end

section
/-! The step as a whole, the stacked immediates, ADDS, SUBS, ADDC and SUBC on the accumulator, and the bit operations with
CY (30_encoding.md R120, R129, R130). The statements `step_runs_decoded_instruction`, `stacked_immediates`,
`accumulator_arithmetic_with_skip`, `radix_adjustment` and `bit_to_carry`. -/

namespace Sys2Proof.Machine

/-! ### Stacked instructions (R129) -/

/-- A stacked instruction of group `g`: its register write `x` is dropped behind one of its group. -/
theorem stacked_does {s x : State} {ws : List (DAddr × Nibble)} (g : Stacked) (c : Nat) (hx : SameButRam s x)
    (hm : Wrote s x ws) (hram : Memory.wf ramDefault ramSize s.ram = true) :
    ∃ t, (.next { (if s.stacked = g then s else x).ended c with stacked := g } : Result) = .next { t with stacked := g } ∧
      Does s (.next t) { s.quiet c with words := if s.stacked = g then [] else ws } := by
  refine ⟨(if s.stacked = g then s else x).ended c, rfl, ?_⟩
  split
  · exact does_finish c (SameButRam.refl s) (Wrote.refl s hram)
  · exact does_finish c hx hm

/-- Settles O5: the three forms are the two groups with their register writes (`stacked_does`). -/
theorem stackedImmediates : Obligations.stacked_immediates := by
  unfold Obligations.stacked_immediates
  intro s n m hInv
  have same := SameButRam.refl s
  have before := Wrote.refl s hInv.ram
  exact ⟨stacked_does .groupA 1 (same.setReg .a n) (before.setReg rfl .a n) hInv.ram,
    stacked_does .groupA 2 (same.setPair .xa m) ((before.setXa rfl m).cast (List.append_nil _)) hInv.ram,
    stacked_does .groupB 2 (same.setPair .hl m) ((before.setPair rfl .hl m).cast (List.append_nil _)) hInv.ram⟩

/-! ### ADDS and SUBS on A (R210, R212, R218) -/

/-- `A` becomes the result with a data memory word; skip on carry or borrow. -/
theorem skipA_does (s : State) (h : Memory.wf ramDefault ramSize s.ram = true) (a : DAddr) (v : Nibble) (k : Bool)
    (n : Nat) (hn : k = true → s.nextHas s.pc n) :
    Does s (((s.touch a).setReg .a v).finishSkip 1 k)
      (Effect.skipIf { s.quiet 1 with words := [s.regWord .a v], operand := some a } s k n) :=
  does_finishSkip_operand a 1 k n ((SameButRam.refl _).setReg .a v) (((Wrote.refl s h).touch a).setReg rfl .a v) hn

/-- Settles O16: `addC` and `subC` without carry in are the sum and difference of bit vectors. -/
theorem accumulatorArithmeticWithSkip : Obligations.accumulator_arithmetic_with_skip := by
  unfold Obligations.accumulator_arithmetic_with_skip
  intro s n k hInv a m
  have hadd := addC_false 4 a
  have hsub : subC a m false = (a - m, decide (a.toNat < m.toNat)) := subC_false 4 a m
  refine ⟨fun hn => ?imm, fun hn => ?adds, fun hn => ?subs⟩
  case imm =>
    have hexec : exec (.addsAImm n) s =
        (s.setReg .a (a + n)).finishSkip 1 (decide (16 ≤ a.toNat + n.toNat) && !s.addsNoskip) :=
      congrArg (fun r : Nibble × Bool => (s.setReg .a r.1).finishSkip 1 (r.2 && !s.addsNoskip)) (hadd n)
    rw [hexec]
    exact does_setReg_skip s hInv.ram .a (a + n) 1 _ k fun hk => hn (by simpa using hk)
  case adds =>
    have hexec : exec .addsAHl s =
        ((s.touch s.eaHl).setReg .a (a + m)).finishSkip 1 (decide (16 ≤ a.toNat + m.toNat)) :=
      congrArg (fun r : Nibble × Bool => ((s.touch s.eaHl).setReg .a r.1).finishSkip 1 r.2) (hadd m)
    rw [hexec]
    exact skipA_does s hInv.ram s.eaHl (a + m) _ k fun hk => hn (of_decide_eq_true hk)
  case subs =>
    have hexec : exec .subsAHl s =
        ((s.touch s.eaHl).setReg .a (a - m)).finishSkip 1 (decide (a.toNat < m.toNat)) :=
      congrArg (fun r : Nibble × Bool => ((s.touch s.eaHl).setReg .a r.1).finishSkip 1 r.2) hsub
    rw [hexec]
    exact skipA_does s hInv.ram s.eaHl (a - m) _ k fun hk => hn (of_decide_eq_true hk)

/-! ### ADDC and SUBC on A (R215, R221, R130) -/

/-- With borrow in, the difference is that of bit vectors; its borrow compares numbers. -/
theorem subC_eq (a b : Nibble) (c : Bool) :
    subC a b c = (a - b - BitVec.ofNat 4 c.toNat, decide (a.toNat < b.toNat + c.toNat)) := by
  revert a b c
  decide

/-- 60H-6FH, NOP and `ADDS A,#n4`, are one byte long (R122). -/
theorem lengthOf_six {b : Byte} (h : b.extractLsb' 4 4 = 6#4) : lengthOf b = some 1 := by
  revert b
  decide

/-- The end of ADDC and SUBC, by the byte that follows. -/
theorem finishRadix_does {s x : State} {ws : List (DAddr × Nibble)} (a : DAddr) (v k : Bool) (c : Nat)
    (hx : SameButRam ((s.touch a).setCy v) x) (hm : Wrote s x ws) :
    let e : Effect := { s.quiet c with words := ws, cy := v, operand := some a }
    ((∃ b, s.romByte s.pc.toNat = some b ∧ b.extractLsb' 4 4 = 6#4) →
      if k then Does s (x.finishRadix c k) (e.skipIf s true 1)
      else ∃ t, x.finishRadix c k = .next { t with addsNoskip := true } ∧ Does s (.next t) e) ∧
    ((∃ b, s.romByte s.pc.toNat = some b ∧ b.extractLsb' 4 4 ≠ 6#4) → Does s (x.finishRadix c k) e) := by
  intro e
  have ended : Does s (.next (x.ended c)) e := does_finish_operand_cy a v c hx hm
  have hrom : x.romByte x.pc.toNat = s.romByte s.pc.toNat := by rw [hx]; rfl
  obtain ⟨hnone, -⟩ | ⟨b', hb', hcases⟩ := State.finishRadix_cases x c k
  · simp only [← hrom, hnone, reduceCtorEq, false_and, exists_false, false_implies, and_self]
  rw [← hrom, hb']
  refine ⟨fun ⟨b, hb, h6⟩ => ?adds, fun ⟨b, hb, h6⟩ => ?other⟩ <;> cases hb
  case adds =>
    obtain ⟨hn, -⟩ | ⟨-, rfl, hr⟩ | ⟨-, rfl, hr⟩ := hcases
    · exact absurd h6 hn
    · have skip := State.finishSkip_next x c true 1 fun _ => ⟨b', hb', lengthOf_six h6⟩
      rw [if_pos rfl, hr, skip]
      exact ended.skipped s s _ _ true 1 rfl
    · rw [if_neg Bool.false_ne_true, hr]
      exact ⟨x.ended c, rfl, ended⟩
  case other =>
    obtain ⟨-, hr⟩ | ⟨hn, -⟩ | ⟨hn, -⟩ := hcases
    · rw [hr]
      exact ended
    · exact absurd hn h6
    · exact absurd hn h6

/-- Settles O17: both forms end in `finishRadix` behind their result; the borrow of SUBC is that of `subC` (`subC_eq`). -/
theorem radixAdjustment : Obligations.radix_adjustment := by
  unfold Obligations.radix_adjustment
  intro s r c skips i hInv hm
  have hexec : exec i s = (((s.touch s.eaHl).setReg .a r).setCy c).finishRadix 1 skips := by
    simp only [List.mem_cons, Prod.mk.injEq, List.not_mem_nil, or_false] at hm
    obtain ⟨rfl, rfl, rfl, rfl⟩ | ⟨rfl, rfl, rfl, rfl⟩ := hm
    · rfl
    · have ends := congrArg
        (fun q : Nibble × Bool => (((s.touch s.eaHl).setReg .a q.1).setCy q.2).finishRadix 1 (!q.2))
        (subC_eq (s.getReg .a) (s.read4 s.eaHl) s.cy)
      exact ends
  have same : SameButRam ((s.touch s.eaHl).setCy c) (((s.touch s.eaHl).setReg .a r).setCy c) :=
    congrArg (fun y : State => y.setCy c) ((SameButRam.refl _).setReg .a r)
  rw [hexec]
  exact finishRadix_does s.eaHl c skips 1 same ((((Wrote.refl s hInv.ram).touch s.eaHl).setReg rfl .a r).setCy c)

/-! ### CY and a bit (R194, R293 to R295) -/


/-- A meaning that puts a bit into CY by `F`. -/
theorem does_of_cyFromBit {s : State} {i : Instr} (hram : Memory.wf ramDefault ramSize s.ram = true)
    (F : Bool → Bool → Bool) {a : DAddr} {b : BitVec 2} (he : exec i s = cyFromBit F a b s) :
    Does s (exec i s) { s.quiet 2 with cy := F s.cy (s.readBit a b), operand := some a } :=
  he ▸ cyFromBit_does F s hram a b

/-- Settles O22: every form is `cyFromBit` at its address and bit. -/
theorem bitToCarry : Obligations.bit_to_carry := by
  unfold Obligations.bit_to_carry
  intro s hi f g d b hInv
  have does {i a k} F (he : exec i s = cyFromBit F a k s) := does_of_cyFromBit hInv.ram F he
  refine forall_triple_mem (fun i a v => Does s (exec i s) { s.quiet 2 with cy := v, operand := some a }) _ ?_
  simp only [List.forall_mem_cons]
  exact ⟨does (fun _ v => v) rfl, does (fun _ v => v) rfl, does (fun _ v => v) rfl,
    does (· && ·) rfl, does (· && ·) rfl, does (· && ·) rfl, does (· || ·) rfl, does (· || ·) rfl, does (· || ·) rfl,
    does Bool.xor rfl, does Bool.xor rfl, does Bool.xor rfl, List.forall_mem_nil _⟩

/-! ### The step (R590) -/

theorem andThen_assoc (r : Result) (f g : State → Result) :
    andThen (andThen r f) g = andThen r fun t => andThen (f t) g := by
  cases r <;> rfl

/-- Bytes that are all there are read. -/
theorem romBytes_eq {s : State} {a : Nat} {l : List Byte} (h : ∀ k (hk : k < l.length), s.romByte (a + k) = some l[k]) :
    s.romBytes a l.length = some l := by
  induction l generalizing a with
  | nil => rfl
  | cons b t ih =>
    have first : s.romByte a = some b := h 0 (Nat.zero_lt_succ _)
    have others : s.romBytes (a + 1) t.length = some t :=
      ih fun k hk => Nat.add_right_comm a 1 k ▸ h (k + 1) (Nat.succ_lt_succ hk)
    simp only [List.length_cons, State.romBytes, first, others]

theorem fetch_eq {s : State} {b : Byte} {tail : List Byte} (hn : (lengthOf b).getD 1 = tail.length + 1)
    (h : ∀ k (hk : k < (b :: tail).length), s.romByte (s.pc.toNat + k) = some (b :: tail)[k]) :
    s.fetch = .ok (b :: tail) := by
  have first : s.romByte s.pc.toNat = some b := h 0 (Nat.zero_lt_succ _)
  have all : s.romBytes s.pc.toNat (tail.length + 1) = some (b :: tail) := romBytes_eq h
  simp only [State.fetch, first, hn, all]

/-- In the operating mode, with nothing to accept, the step is that of the instruction at PC. -/
theorem step_eq_instrStep {s : State} (hr : s.sample.pins.resetAsserted = false) (hq : s.sample.resetReq = false)
    (hs : s.sample.standby = .run) (hp : s.sample.phiRuns = true) (ha : s.sample.accepted = none) :
    step s = andThen (instrStep s.sample) fun t => .next t.bump := by
  simp only [step, modeStep, hr, hq, hs, hp, runStep, ha, Bool.false_and, Bool.or_self, Bool.false_eq_true, if_false,
    if_true]

/-- Settles O38: the fetch reads the bytes that are there (`fetch_eq`), and the rest of the step is as written. -/
theorem stepRunsDecodedInstruction : Obligations.step_runs_decoded_instruction := by
  unfold Obligations.step_runs_decoded_instruction
  intro s b tail rest i q hr hq hs hp ha hn hbytes hdec
  refine ⟨rfl, ?_⟩
  have fetched : instrStep q = andThen (exec i (q.started (tail.length + 1))) fun t => .next (settle q t) := by
    simp only [instrStep, fetch_eq hn hbytes, hdec, List.length_cons]
  rw [step_eq_instrStep hr hq hs hp ha, fetched, andThen_assoc]
  rfl

end Sys2Proof.Machine
end

section
/-! Moves and exchanges between registers, loads from data memory, ports and peripheral registers, and MOVT
(41_transfer.md; 46_cpu_control_io_geti.md R386, R387). The statements `register_moves`, `memory_loads` and
`table_references`. -/

namespace Sys2Proof.Machine

/-! ### Exchanges between registers (R188, R189) -/

/-- `r` takes `w`, then A takes `v`, which is what counts where `r` is A. -/
theorem does_setReg_setA (s : State) (h : Memory.wf ramDefault ramSize s.ram = true) (r : Reg) (v w : Nibble) (c : Nat) :
    Does s (((s.setReg r w).setReg .a v).finish c) { s.quiet c with words := [s.regWord .a v, s.regWord r w] } :=
  have same : SameButRam s (s.setReg r w) := (SameButRam.refl s).setReg r w
  does_finish c (same.setReg .a v) (((Wrote.refl s h).setReg rfl r w).setReg same.regBank .a v)

/-- The pair of the rp' class takes `w`, then XA takes `v`, in the bank in force at the start. -/
theorem does_setRpP_setXa (s : State) (h : Memory.wf ramDefault ramSize s.ram = true) (p : RpP) (v w : Byte) (c : Nat) :
    Does s (((s.setRpP p w).setPair .xa v).finish c) { s.quiet c with words := s.xaWords v ++ s.rpWords p w } :=
  have same : SameButRam s (s.setRpP p w) := (SameButRam.refl s).setRpP p w
  have pairWritten : Wrote s (s.setRpP p w) (s.rpWords p w) :=
    ((Wrote.refl s h).setRpP rfl p w).cast (List.append_nil _)
  does_finish c (same.setPair .xa v) (pairWritten.setXa same.regBank v)

/-- Settles O6: a move writes one register or pair (`does_setReg`, `does_setPair`, `does_setRpP`), an exchange two. -/
theorem registerMoves : Obligations.register_moves := by
  unfold Obligations.register_moves
  intro s r p q n m hInv
  have hram := hInv.ram
  refine ⟨?movReg1Imm, ?movRp2Imm, ?movAReg, ?movXaRp, ?movReg1A, ?movRpXa, ?xchAReg1, ?xchXaRp⟩
  case movReg1Imm => exact does_setReg s hram r n 2
  case movRp2Imm => exact does_setPair s hram p m 2
  case movAReg => exact does_setReg s hram .a (s.getReg r) 2
  case movXaRp => exact does_setPair s hram .xa (s.getRpP q) 2
  case movReg1A => exact does_setReg s hram r (s.getReg .a) 2
  case movRpXa => exact does_setRpP s hram q (s.getPair .xa) 2
  case xchAReg1 => exact does_setReg_setA s hram r (s.getReg r) (s.getReg .a) 1
  case xchXaRp => exact does_setRpP_setXa s hram q (s.getRpP q) (s.getPair .xa) 2

/-! ### Loads (R166, R169, R170, R173, R174, R386, R387) -/

/-- Settles O7: every form is `loadA` or `loadXa` at its address; a port is the word F0H + n of the direct form (R384). -/
theorem memoryLoads : Obligations.memory_loads := by
  unfold Obligations.memory_loads
  intro s q m n hInv
  have loadsA := loadA_does s hInv.ram
  have loadsXa := loadXa_does s hInv.ram
  refine ⟨?movAHl, ?movARpa1, ?movXaHl, ?movAMem, ?movXaMem, ?inAPort, ?inXaPort⟩
  case movAHl => exact loadsA s.eaHl 1
  case movARpa1 => exact loadsA (s.eaRpa1 q) 1
  case movXaHl => exact loadsXa s.eaHl8 2
  case movAMem => exact loadsA (s.eaMem m) 2
  case movXaMem => exact loadsXa (s.eaMem8 m) 2
  case inAPort => exact loadsA (s.eaMem (portMem n)) 2
  case inXaPort => exact loadsXa (s.eaMem 0xF4) 2

/-! ### Table references (R190 to R193) -/

/-- Settles O11: every form is `tableRead` at its address; BCDE and BCXA are two bytes put together (`append_toNat`). -/
theorem tableReferences : Obligations.table_references := by
  unfold Obligations.table_references
  intro s b hInv
  have table := fun a => tableRead_does s hInv.ram a b
  simp only [append_toNat]
  refine ⟨?pcde, ?pcxa, ?bcde, ?bcxa⟩
  case pcde => exact table (s.pc.toNat / 256 * 256 + (s.getPair .de).toNat)
  case pcxa => exact table (s.pc.toNat / 256 * 256 + (s.getPair .xa).toNat)
  case bcde => exact table ((s.getPair .bc).toNat * 256 + (s.getPair .de).toNat)
  case bcxa => exact table ((s.getPair .bc).toNat * 256 + (s.getPair .xa).toNat)

end Sys2Proof.Machine
end

section
/-! Arithmetic on registers and pairs with and without CY, INCS and DECS on registers, SKE, RORC A and NOT A
(42_arithmetic_logic.md R211 to R223, R236 to R249). The statements `accumulator_manipulation`,
`pair_arithmetic_with_carry`, `pair_arithmetic_with_skip`, `register_increment_decrement` and `compare_and_skip`. -/

namespace Sys2Proof.Machine

/-! ### RORC A and NOT A (R236, R237) -/

/-- The rotated accumulator bit by bit. -/
theorem rorc_fst (a : Nibble) (c : Bool) : (rorc a c).1 = nib c (a.getLsbD 3) (a.getLsbD 2) (a.getLsbD 1) := by
  revert a c
  decide

theorem complement_eq_fifteen_sub (a : Nibble) : ~~~a = 15 - a := by
  revert a
  decide

/-- `reg[r] <- v` and `CY <- k`. -/
theorem does_setReg_setCy (s : State) (h : Memory.wf ramDefault ramSize s.ram = true) (r : Reg) (v : Nibble) (k : Bool)
    (c : Nat) : Does s (((s.setReg r v).setCy k).finish c) { s.quiet c with words := [s.regWord r v], cy := k } :=
  have same : SameButRam (s.setCy k) ((s.setReg r v).setCy k) :=
    congrArg (fun y : State => y.setCy k) ((SameButRam.refl s).setReg r v)
  does_finish_cy k c same (((Wrote.refl s h).setReg rfl r v).setCy k)

/-- Settles O13: RORC A writes A and CY (`rorc_fst`), NOT A writes A alone. -/
theorem accumulatorManipulation : Obligations.accumulator_manipulation := by
  unfold Obligations.accumulator_manipulation
  intro s rest hInv a
  refine ⟨⟨readsBack_of_wf .rorcA rfl rfl rest, ?rorc⟩, ⟨readsBack_of_wf .notA rfl rfl rest, ?not⟩⟩
  case rorc =>
    rw [← rorc_fst]
    exact does_setReg_setCy s hInv.ram .a (rorc a s.cy).1 (rorc a s.cy).2 1
  case not =>
    rw [← complement_eq_fifteen_sub]
    exact does_setReg s hInv.ram .a (~~~a) 2

/-! ### ADDC and SUBC on pairs (R216, R217, R222, R223) -/

/-- With borrow in, at every width, the difference is that of bit vectors; its borrow compares numbers. -/
theorem subC_eq_sub {w : Nat} (a b : BitVec w) (c : Bool) :
    subC a b c = (a - b - BitVec.ofNat w c.toNat, decide (a.toNat < b.toNat + c.toNat)) := by
  refine Prod.ext ?difference (decide_eq_decide.mpr (by omega))
  simp only [subC, Int.sub_eq_add_neg, BitVec.ofInt_add, BitVec.ofInt_neg, BitVec.ofInt_natCast, BitVec.ofNat_toNat,
    BitVec.setWidth_eq, BitVec.sub_eq_add_neg]

/-- Settles O14: every form is `carryXa` or `carryRp`; the sum is `addC` itself, the difference that of `subC_eq_sub`. -/
theorem pairArithmeticWithCarry : Obligations.pair_arithmetic_with_carry := by
  unfold Obligations.pair_arithmetic_with_carry
  intro s p rest hInv xa q c
  have notXa : p ≠ .xa → (p != .xa) = true := bne_iff_ne.mpr
  have subXa := carryXa_does subC s hInv.ram p
  have subRp := carryRp_does subC s hInv.ram p
  rw [subC_eq_sub] at subXa subRp
  exact ⟨⟨readsBack_of_wf (.addcXaRp p) rfl rfl rest, carryXa_does addC s hInv.ram p⟩,
    ⟨fun hp => readsBack_of_wf (.addcRpXa p) (notXa hp) rfl rest, carryRp_does addC s hInv.ram p⟩,
    ⟨readsBack_of_wf (.subcXaRp p) rfl rfl rest, subXa⟩,
    ⟨fun hp => readsBack_of_wf (.subcRpXa p) (notXa hp) rfl rest, subRp⟩⟩

/-! ### ADDS and SUBS on pairs (R211, R213, R214, R219, R220) -/

/-- `XA` becomes the result `r`; skip on its carry or borrow. -/
theorem does_setXa_skip {s : State} (h : Memory.wf ramDefault ramSize s.ram = true) {r : Byte × Bool} {v : Byte} {c : Prop}
    [Decidable c] {n : Nat} (hr : r = (v, decide c)) (hn : c → s.nextHas s.pc n) :
    Does s ((s.setPair .xa r.1).finishSkip 2 r.2)
      (Effect.skipIf { s.quiet 2 with words := s.xaWords v } s (decide c) n) := by
  subst hr
  exact does_setPair_skip s h .xa v 2 (decide c) n fun hc => hn (of_decide_eq_true hc)

/-- A pair of the rp' class becomes the result `r`; skip on its carry or borrow. -/
theorem does_setRpP_skip_of_eq {s : State} (h : Memory.wf ramDefault ramSize s.ram = true) {p : RpP} {r : Byte × Bool}
    {v : Byte} {c : Prop} [Decidable c] {n : Nat} (hr : r = (v, decide c)) (hn : c → s.nextHas s.pc n) :
    Does s ((s.setRpP p r.1).finishSkip 2 r.2)
      (Effect.skipIf { s.quiet 2 with words := s.rpWords p v } s (decide c) n) := by
  subst hr
  exact does_setRpP_skip s h p v 2 (decide c) n fun hc => hn (of_decide_eq_true hc)

/-- Settles O15: the results are those of `addC` and `subC` without carry in. -/
theorem pairArithmeticWithSkip : Obligations.pair_arithmetic_with_skip := by
  unfold Obligations.pair_arithmetic_with_skip
  intro s p n k rest hInv xa q
  have notXa : p ≠ .xa → (p != .xa) = true := bne_iff_ne.mpr
  have hram := hInv.ram
  exact ⟨⟨readsBack_of_wf (.addsXaImm n) rfl rfl rest, does_setXa_skip hram (addC_false 8 xa n)⟩,
    ⟨readsBack_of_wf (.addsXaRp p) rfl rfl rest, does_setXa_skip hram (addC_false 8 xa q)⟩,
    ⟨fun hp => readsBack_of_wf (.addsRpXa p) (notXa hp) rfl rest, does_setRpP_skip_of_eq hram (addC_false 8 q xa)⟩,
    ⟨readsBack_of_wf (.subsXaRp p) rfl rfl rest, does_setXa_skip hram (subC_false 8 xa q)⟩,
    ⟨fun hp => readsBack_of_wf (.subsRpXa p) (notXa hp) rfl rest, does_setRpP_skip_of_eq hram (subC_false 8 q xa)⟩⟩

/-! ### INCS and DECS on registers (R238, R239, R242, R243) -/

/-- An effect with a skip whose condition `j` comes to the comparison of `a` with `b`. -/
theorem does_skip_of_eq {α : Type} [BEq α] [LawfulBEq α] {s x : State} {c n : Nat} {e : Effect} {j : Bool} {a b : α}
    (hj : j = (a == b)) (hn : a = b → s.nextHas s.pc n)
    (h : ((a == b) = true → s.nextHas s.pc n) → Does s (x.finishSkip c (a == b)) (e.skipIf s (a == b) n)) :
    Does s (x.finishSkip c j) (e.skipIf s (a == b) n) := by
  rw [hj]
  exact h fun hab => hn (eq_of_beq hab)

/-- Settles O18: the result is 0, or all ones, where the operand is all ones, or 0. -/
theorem registerIncrementDecrement : Obligations.register_increment_decrement := by
  unfold Obligations.register_increment_decrement
  intro s r p q k rest hInv
  have hram := hInv.ram
  exact ⟨⟨readsBack_of_wf (.incsReg r) rfl rfl rest, fun hn =>
      does_skip_of_eq (succ_eq_zero_iff _) hn (does_setReg_skip s hram r _ 1 _ k)⟩,
    ⟨fun hp => readsBack_of_wf (.incsRp1 p) (bne_iff_ne.mpr hp) rfl rest, fun hn =>
      does_skip_of_eq (succ_eq_zero_iff_byte _) hn (does_setPair_skip s hram p _ 1 _ k)⟩,
    ⟨readsBack_of_wf (.decsReg r) rfl rfl rest, fun hn =>
      does_skip_of_eq (pred_eq_max_iff _) hn (does_setReg_skip s hram r _ 1 _ k)⟩,
    ⟨readsBack_of_wf (.decsRp q) rfl rfl rest, fun hn =>
      does_skip_of_eq (pred_eq_max_iff_byte _) hn (does_setRpP_skip s hram q _ 2 _ k)⟩⟩

/-! ### SKE (R244 to R249) -/

/-- Settles O20: every form is `finishSkip` from a state that has written nothing; those with `@HL` name their operand. -/
theorem compareAndSkip : Obligations.compare_and_skip := by
  unfold Obligations.compare_and_skip
  intro s r n p k hInv
  have before := Wrote.refl s hInv.ram
  have plain (c : Nat) (b : Bool) := does_finishSkip c b k (SameButRam.refl s) before
  have operand (a : DAddr) (c : Nat) (b : Bool) := does_finishSkip_operand a c b k (SameButRam.refl _) (before.touch a)
  refine forall_triple_mem
    (fun i (e : Effect) c => (c = true → s.nextHas s.pc k) → Does s (exec i s) (e.skipIf s c k)) _ ?_
  simp only [List.forall_mem_cons]
  exact ⟨plain 2 _, operand s.eaHl 2 _, operand s.eaHl 1 _, operand s.eaHl8 2 _, plain 2 _, plain 2 _,
    List.forall_mem_nil _⟩

end Sys2Proof.Machine
end

section
/-! Which instructions write CY (42_arithmetic_logic.md R259, R261): one lemma for each operation and each shape of
Machine/Shapes.lean that leaves it, then one case for each instruction. The statement `carry_written_only_by`. -/

namespace Sys2Proof.Machine

variable {v : Bool} {x : State}

/-- Every next state that `r` answers holds `v` in CY. -/
def AnswerCy (v : Bool) (r : Result) : Prop := ∀ t, r = .next t → t.cy = v

/-! ### Answers -/

namespace AnswerCy

theorem next (h : x.cy = v) : AnswerCy v (.next x) := by
  intro t ht
  cases ht
  exact h

theorem fault (f : Fault) : AnswerCy v (.fault f) := fun _ h => nomatch h

theorem refused (f : Refusal) : AnswerCy v (.refused f) := fun _ h => nomatch h

theorem andThen {r : Result} {f : State → Result} (h : AnswerCy v r) (k : ∀ u, u.cy = v → AnswerCy v (f u)) :
    AnswerCy v (andThen r f) := by
  intro t ht
  obtain ⟨u, hu, hf⟩ := andThen_eq_next r f t ht
  exact k u (h u hu) t hf

theorem finish (h : x.cy = v) (c : Nat) : AnswerCy v (x.finish c) := next h

theorem skipNext (h : x.cy = v) : AnswerCy v x.skipNext := by
  rcases x.skipNext_cases with ⟨-, e⟩ | ⟨b, -, -, e⟩ | ⟨b, n, -, -, e⟩
  · exact e ▸ fault _
  · exact e ▸ refused _
  · exact e ▸ next h

theorem finishSkip (h : x.cy = v) (c : Nat) (k : Bool) : AnswerCy v (x.finishSkip c k) := by
  cases k with
  | false => exact finish h c
  | true => exact skipNext (x := x.ended c) h

/-- BRA and CALLA (U9). -/
theorem mkII {s : State} {r : Result} (h : AnswerCy v r) : AnswerCy v (if s.mkI then .refused .mkIIOnly else r) := by
  split
  · exact refused _
  · exact h

end AnswerCy

/-! ### Writes of data memory -/

theorem PeripheralWrite.cy {s t : State} (h : PeripheralWrite s t) : t.cy = s.cy := congrArg CpuFields.cy h.cpu

theorem write4_cy (h : x.cy = v) (a : DAddr) (w : Nibble) : AnswerCy v (x.write4 a w) := by
  unfold State.write4
  split
  · exact fun t ht => (ioWrite4_write ht).cy.trans h
  · exact .next ((x.ramWrite_cy a w).trans h)

theorem write8_cy (h : x.cy = v) (a : DAddr) (w : Byte) : AnswerCy v (x.write8 a w) := by
  unfold State.write8
  split
  · exact fun t ht => (ioWrite8_write ht).cy.trans h
  · exact .next (by simp only [State.ramWrite_cy, h])

theorem writeBit_cy (h : x.cy = v) (a : DAddr) (b : BitVec 2) (w : Bool) : AnswerCy v (x.writeBit a b w) := by
  unfold State.writeBit
  split
  · exact fun t ht => (ioWriteBit_write ht).cy.trans h
  · exact .next ((x.ramWrite_cy a _).trans h)

/-! ### The frame of a call -/

@[simp] theorem State.saveFrame_cy (s : State) (ret : BitVec 14) : (s.saveFrame ret).cy = s.cy := by
  unfold State.saveFrame State.saveMkI State.saveMkII
  split <;> simp only [State.moveSp_cy, State.setStk_cy]

@[simp] theorem State.restoreFrame_cy (s : State) : s.restoreFrame.cy = s.cy := by
  unfold State.restoreFrame
  split <;> rfl

/-! ### Shapes -/

section Shapes

variable (s : State)

theorem loadA_cy (a : DAddr) (c : Nat) : AnswerCy s.cy (loadA a c s) :=
  .finish ((State.setReg_cy _ _ _).trans (s.touch_cy a)) c

theorem loadXa_cy (a : DAddr) (c : Nat) : AnswerCy s.cy (loadXa a c s) :=
  .finish ((State.setPair_cy _ _ _).trans (s.touch_cy a)) c

theorem storeA_cy (a : DAddr) (c : Nat) : AnswerCy s.cy (storeA a c s) :=
  (write4_cy (s.touch_cy a) a _).andThen fun _ h => .finish h c

theorem storeXa_cy (a : DAddr) (c : Nat) : AnswerCy s.cy (storeXa a c s) :=
  (write8_cy (s.touch_cy a) a _).andThen fun _ h => .finish h c

theorem swapA_cy (a : DAddr) : AnswerCy s.cy (swapA a s) :=
  (write4_cy (s.touch_cy a) a _).andThen fun _ h => .next ((State.setRegIn_cy _ _ _ _).trans h)

theorem exchangeA_cy (a : DAddr) (c : Nat) : AnswerCy s.cy (exchangeA a c s) :=
  (swapA_cy s a).andThen fun _ h => .finish h c

theorem exchangeXa_cy (a : DAddr) (c : Nat) : AnswerCy s.cy (exchangeXa a c s) :=
  (write8_cy (s.touch_cy a) a _).andThen fun _ h => .finish ((State.setPairIn_cy _ _ _ _).trans h) c

theorem stepUpL_cy (h : x.cy = v) (b : BitVec 2) : AnswerCy v (stepUpL b x) :=
  .finishSkip ((State.setRegIn_cy _ _ _ _).trans h) 2 _

theorem stepDownL_cy (h : x.cy = v) (b : BitVec 2) : AnswerCy v (stepDownL b x) :=
  .finishSkip ((State.setRegIn_cy _ _ _ _).trans h) 2 _

theorem accA_cy (f : Nibble → Nibble → Nibble) (a : DAddr) : AnswerCy s.cy (accA f a s) :=
  .finish ((State.setReg_cy _ _ _).trans (s.touch_cy a)) 1

theorem putBit_cy (a : DAddr) (b : BitVec 2) (w : Bool) : AnswerCy s.cy (putBit a b w s) :=
  (writeBit_cy (s.touch_cy a) a b w).andThen fun _ h => .finish h 2

theorem testAndClear_cy (a : DAddr) (b : BitVec 2) : AnswerCy s.cy (testAndClear a b s) := by
  unfold testAndClear
  split
  · exact (writeBit_cy (s.touch_cy a) a b false).andThen fun _ h => .finishSkip h 2 true
  · exact .finish (s.touch_cy a) 2

theorem incsAt_cy (a : DAddr) : AnswerCy s.cy (incsAt a s) :=
  (write4_cy (s.touch_cy a) a _).andThen fun _ h => .finishSkip h 2 _

theorem stopCpu_cy : AnswerCy s.cy (stopCpu s) := by
  rcases stopCpu_cases s with ⟨-, e⟩ | ⟨t, ht, e⟩
  · exact e ▸ .refused _
  · rw [e]
    exact .next (enterStop_write ht).cy

theorem tableRead_cy (a : Nat) : AnswerCy s.cy (tableRead a s) := by
  unfold tableRead
  split
  · exact .finish (State.setPair_cy _ _ _) 3
  · exact .fault _

/-- MOV A,#n4, MOV XA,#n8 and MOV HL,#n8 (R129). -/
theorem stacked_cy {t : State} (p : Prop) [Decidable p] (h : t.cy = s.cy) (c : Nat) (g : Stacked) :
    AnswerCy s.cy (.next { (if p then s else t).ended c with stacked := g }) := by
  refine .next ?_
  show (if p then s else t).cy = s.cy
  split
  · rfl
  · exact h

theorem jump_cy (t c : Nat) : AnswerCy s.cy (jump t c s) := .finish (s.setPc_cy t) c

theorem callTo_cy (t c : Nat) : AnswerCy s.cy (callTo t c s) :=
  .finish ((State.setPc_cy _ _).trans (s.saveFrame_cy s.pc)) c

theorem pushRp_cy (p : Rp) : AnswerCy s.cy (execPushRp p s) :=
  .finish (by simp only [State.moveSp_cy, State.setStk_cy]) 1

theorem popRp_cy (p : Rp) : AnswerCy s.cy (execPopRp p s) :=
  .finish (by simp only [State.moveSp_cy, State.setRegIn_cy]) 1

end Shapes

/-! ### Every instruction -/

/-- An instruction that may not write CY leaves it, by its shape. -/
theorem exec_cy (i : Instr) (s : State) (hi : ¬ mayWriteCy i) : AnswerCy s.cy (exec i s) := by
  cases i with
  -- transfers (41_transfer.md)
  | movAImm => exact stacked_cy s _ (State.setReg_cy _ _ _) _ _
  | movXaImm | movHlImm => exact stacked_cy s _ (State.setPair_cy _ _ _) _ _
  | movAHl | movARpa1 | movAMem | inAPort => exact loadA_cy s _ _
  | movXaHl | movXaMem | inXaPort => exact loadXa_cy s _ _
  | movHlA | movMemA | outPortA => exact storeA_cy s _ _
  | movHlXa | movMemXa | outPortXa => exact storeXa_cy s _ _
  | xchAHl | xchARpa1 | xchAMem => exact exchangeA_cy s _ _
  | xchXaHl | xchXaMem => exact exchangeXa_cy s _ _
  | movAHlInc => exact stepUpL_cy ((State.setReg_cy _ _ _).trans (s.touch_cy _)) _
  | movAHlDec => exact stepDownL_cy ((State.setReg_cy _ _ _).trans (s.touch_cy _)) _
  | xchAHlInc => exact (swapA_cy s _).andThen fun _ h => stepUpL_cy h _
  | xchAHlDec => exact (swapA_cy s _).andThen fun _ h => stepDownL_cy h _
  | movReg1Imm | movAReg | movReg1A | notA | andAImm | orAImm | xorAImm => exact .finish (State.setReg_cy _ _ _) _
  | andAHl | orAHl | xorAHl => exact accA_cy s _ _
  | movRp2Imm | movXaRp | andXaRp | orXaRp | xorXaRp => exact .finish (State.setPair_cy _ _ _) _
  | movRpXa | andRpXa | orRpXa | xorRpXa => exact .finish (State.setRpP_cy _ _ _) _
  | xchAReg1 => exact .finish (by simp only [State.setReg_cy]) 1
  | xchXaRp => exact .finish (by simp only [State.setPair_cy, State.setRpP_cy]) 2
  | movtPcde | movtPcxa | movtBcde | movtBcxa => exact tableRead_cy s _
  -- arithmetic, increment, compare (42_arithmetic_logic.md)
  | addsAImm | incsReg | decsReg => exact .finishSkip (State.setReg_cy _ _ _) _ _
  | addsAHl | subsAHl => exact .finishSkip ((State.setReg_cy _ _ _).trans (s.touch_cy _)) 1 _
  | addsXaImm | addsXaRp | subsXaRp | incsRp1 => exact .finishSkip (State.setPair_cy _ _ _) _ _
  | addsRpXa | subsRpXa | decsRp => exact .finishSkip (State.setRpP_cy _ _ _) _ _
  | incsHl | incsMem => exact incsAt_cy s _
  | skeRegImm | skeAReg | skeXaRp | sktCy => exact .finishSkip rfl _ _
  | skeHlImm | skeAHl | skeXaHl => exact .finishSkip (s.touch_cy _) _ _
  -- bits (43_bit_manipulation.md)
  | mov1ToFmem | mov1ToPmem | mov1ToHmem | set1Mem | set1Fmem | set1Pmem | set1Hmem | clr1Mem | clr1Fmem | clr1Pmem
  | clr1Hmem => exact putBit_cy s _ _ _
  | sktMem | sktFmem | sktPmem | sktHmem | skfMem | skfFmem | skfPmem | skfHmem => exact .finishSkip (s.touch_cy _) 2 _
  | sktclrFmem | sktclrPmem | sktclrHmem => exact testAndClear_cy s _ _
  -- branches and calls (44_branch.md, 45_subroutine_stack.md)
  | br | brFwd | brBwd | brcb | brPcde | brPcxa | brBcde | brBcxa | brAuto | brAuto1 | tbr => exact jump_cy s _ _
  | bra => exact .mkII (jump_cy s _ _)
  | call | callf | tcall => exact callTo_cy s _ _
  | calla => exact .mkII (callTo_cy s _ _)
  | ret => exact .finish s.restoreFrame_cy 3
  | rets => exact .finishSkip s.restoreFrame_cy 3 true
  | pushRp => exact pushRp_cy s _
  | popRp => exact popRp_cy s _
  | pushBs => exact .finish (by simp only [State.moveSp_cy, State.setStk_cy]) 2
  | popBs => exact .finish (State.moveSp_cy _ 2) 2
  -- interrupt and CPU control (46_cpu_control_io_geti.md)
  | eiIeBt | eiIeW | eiIeT0 | eiIeCsi | eiIe0 | eiIe2 | eiIe4 | eiIeT1 | eiIe1 | diIeBt | diIeW | diIeT0 | diIeCsi | diIe0
  | diIe2 | diIe4 | diIeT1 | diIe1 =>
    unfold exec
    exact putBit_cy s _ _ _
  | stop => exact stopCpu_cy s
  | ei | di | halt | nop | selRb | selMb => exact .finish rfl _
  | unassigned => exact .refused _
  -- those that may write it
  | addcAHl | subcAHl | addcXaRp | addcRpXa | subcXaRp | subcRpXa | rorcA | set1Cy | clr1Cy | not1Cy | reti
  | mov1CyFmem | mov1CyPmem | mov1CyHmem | and1Fmem | and1Pmem | and1Hmem | or1Fmem | or1Pmem | or1Hmem
  | xor1Fmem | xor1Pmem | xor1Hmem | getiLow | getiHigh => exact absurd (by simp [mayWriteCy]) hi

/-- Settles O42: an instruction that is none of the exceptions leaves CY by its shape (`exec_cy`). -/
theorem carryWrittenOnlyBy : Obligations.carry_written_only_by := by
  unfold Obligations.carry_written_only_by
  exact fun i s t ht hi => exec_cy i s hi t ht

end Sys2Proof.Machine
end

section
/-! The carry flag instructions and the skips on a memory bit (43_bit_manipulation.md R280 to R283, R288 to R291). The
statements `carry_flag_instructions` and `bit_tests`. -/

namespace Sys2Proof.Machine

/-! ### The carry flag (R280 to R283) -/

/-- `CY <- k` and nothing else. -/
theorem does_setCy {s : State} (h : Memory.wf ramDefault ramSize s.ram = true) (k : Bool) (c : Nat) :
    Does s ((s.setCy k).finish c) { s.quiet c with cy := k } :=
  does_finish_cy k c (SameButRam.refl _) ((Wrote.refl s h).setCy k)

/-- Settles O21: SET1, CLR1 and NOT1 write CY alone (`does_setCy`); SKT CY is a skip that writes nothing. -/
theorem carryFlagInstructions : Obligations.carry_flag_instructions := by
  unfold Obligations.carry_flag_instructions
  intro s k rest hInv
  exact ⟨⟨readsBack_of_wf .set1Cy rfl rfl rest, does_setCy hInv.ram true 1⟩,
    ⟨readsBack_of_wf .clr1Cy rfl rfl rest, does_setCy hInv.ram false 1⟩,
    ⟨readsBack_of_wf .sktCy rfl rfl rest, does_finishSkip 1 s.cy k (SameButRam.refl s) (Wrote.refl s hInv.ram)⟩,
    ⟨readsBack_of_wf .not1Cy rfl rfl rest, does_setCy hInv.ram (!s.cy) 1⟩⟩

/-! ### SKT and SKF on a memory bit (R288 to R291) -/

/-- A meaning that skips where a bit has the value `v`, with that condition written as `c`. -/
theorem does_of_skipOnBit {s : State} {i : Instr} {a : DAddr} {b : BitVec 2} {v c : Bool} (n : Nat)
    (hram : Memory.wf ramDefault ramSize s.ram = true) (he : exec i s = skipOnBit a b v s)
    (hc : (s.readBit a b == v) = c) (hn : c = true → s.nextHas s.pc n) :
    Does s (exec i s) (Effect.skipIf { s.quiet 2 with operand := some a } s c n) := by
  subst hc
  exact he ▸ skipOnBit_does s hram a b v n hn

/-- Settles O24: every form is `skipOnBit` at its address and bit, for the value 1 (SKT) or 0 (SKF). -/
theorem bitTests : Obligations.bit_tests := by
  unfold Obligations.bit_tests
  intro s m hi f g d b n hInv
  have skt {i a k} (he : exec i s = skipOnBit a k true s) := does_of_skipOnBit n hInv.ram he (beq_true _)
  have skf {i a k} (he : exec i s = skipOnBit a k false s) := does_of_skipOnBit n hInv.ram he (beq_false _)
  refine forall_triple_mem (fun i a c => (c = true → s.nextHas s.pc n) →
    Does s (exec i s) (Effect.skipIf { s.quiet 2 with operand := some a } s c n)) _ ?_
  simp only [List.forall_mem_cons]
  exact ⟨skt rfl, skt rfl, skt rfl, skt rfl, skf rfl, skf rfl, skf rfl, skf rfl, List.forall_mem_nil _⟩

end Sys2Proof.Machine
end

section
/-! The branches (44_branch.md R321 to R328, R330 to R332). The statement `branches`. -/

namespace Sys2Proof.Machine

/-! ### Branch targets -/

/-- No part has fewer than 12 PC bits or more than 14 (R26). -/
theorem pcWidth_bounds (p : Part) : 12 ≤ p.pcWidth ∧ p.pcWidth ≤ 14 := by
  cases p <;> decide

/-- The PC has no bit above bit 13, so cutting to PCW bits takes targets equal modulo 2^14 to the same address (R27). -/
theorem truncPc_mod (s : State) (a : Nat) : s.truncPc (a % 2 ^ 14) = s.truncPc a := by
  rw [State.truncPc, State.truncPc, Nat.mod_mod_of_dvd a (Nat.pow_dvd_pow 2 (pcWidth_bounds _).2)]

/-- R323, backward: the model's `k - 16`, kept positive by 2^14, is the sign-extended code added to a 14-bit PC. -/
theorem add_signExtend_toNat (p : BitVec 14) (k : Nibble) :
    (p + BitVec.signExtend 14 (15#4 ++ k)).toNat = (p.toNat + 2 ^ 14 + k.toNat - 16) % 2 ^ 14 := by
  have hk : (BitVec.signExtend 14 (15#4 ++ k)).toNat = 2 ^ 14 - 16 + k.toNat := by
    revert k
    decide
  rw [BitVec.toNat_add, hk]
  congr 1
  omega

/-- R324: with the low 12 bits replaced, a PC of PCW bits still has PCW bits, as none of them is below bit 12 but above
PCW - 1. -/
theorem block_lt {p c w : Nat} (hw : 12 ≤ w) (hp : p < 2 ^ w) (hc : c < 2 ^ 12) :
    p / 2 ^ 12 * 2 ^ 12 + c < 2 ^ w := by
  obtain ⟨n, rfl⟩ := Nat.exists_eq_add_of_le' hw
  rw [Nat.pow_add] at hp ⊢
  have hb : p / 2 ^ 12 < 2 ^ n := Nat.div_lt_of_lt_mul (Nat.mul_comm _ _ ▸ hp)
  omega

/-- R324: BRCB replaces PC bits 11-0 and nothing is cut. -/
theorem truncPc_block {s : State} (h : s.Inv) (c : BitVec 12) :
    s.truncPc (s.pc.toNat / 4096 * 4096 + c.toNat) = s.pc.extractLsb' 12 2 ++ c := by
  have ht : s.pc.toNat / 4096 * 4096 + c.toNat < 2 ^ s.chip.part.pcWidth :=
    block_lt (pcWidth_bounds _).1 h.pc c.isLt
  apply BitVec.eq_of_toNat_eq
  rw [State.truncPc, Nat.mod_eq_of_lt ht, BitVec.toNat_ofNat, append_toNat, BitVec.extractLsb'_toNat,
    Nat.shiftRight_eq_div_pow]
  have := s.pc.isLt
  have := c.isLt
  omega

/-! ### The statement -/

/-- A branch whose target, cut to PCW bits, is `p`. -/
theorem does_jump_to {s : State} {i : Instr} {t c : Nat} {p : BitVec 14} (he : exec i s = jump t c s)
    (hp : s.truncPc t = p) : Does s (exec i s) { s.quiet c with pc := p } :=
  hp ▸ he ▸ jump_does s t c

/-- BRA in Mk II mode (R322). -/
theorem exec_bra_mkII {s : State} (t : BitVec 15) (hm : s.sbs.getLsbD 3 = false) :
    exec (.bra t) s = jump t.toNat 3 s :=
  if_neg (Bool.eq_false_iff.mp hm)

/-- Settles O29: every branch is `jump` to its target (`jump_does`). The target is written otherwise by the statement for
`BR $addr` backward (`add_signExtend_toNat`), BRCB (`truncPc_block`), and BCDE and BCXA (`append_toNat`). -/
theorem branches : Obligations.branches := by
  unfold Obligations.branches
  intro s t t1 c k hInv
  have hbwd : s.truncPc (s.pc.toNat + 2 ^ 14 + k.toNat - 16) =
      s.truncPc (s.pc + BitVec.signExtend 14 (15#4 ++ k)).toNat := by
    rw [add_signExtend_toNat, truncPc_mod]
  have hpairs (x y : Byte) : s.truncPc (x.toNat * 256 + y.toNat) = s.truncPc (x ++ y).toNat :=
    congrArg s.truncPc (append_toNat x y).symm
  exact ⟨
    does_jump_to (i := .br t) rfl rfl,
    fun hm => does_jump_to (exec_bra_mkII t1 hm) rfl,
    does_jump_to (i := .brFwd k) rfl rfl,
    does_jump_to (i := .brBwd k) rfl hbwd,
    does_jump_to (i := .brcb c) rfl (truncPc_block hInv c),
    does_jump_to (i := .brPcde) rfl rfl,
    does_jump_to (i := .brPcxa) rfl rfl,
    does_jump_to (i := .brBcde) rfl (hpairs _ _),
    does_jump_to (i := .brBcxa) rfl (hpairs _ _),
    does_jump_to (i := .brAuto t) rfl rfl,
    does_jump_to (i := .brAuto1 t) rfl rfl,
    does_jump_to (i := .tbr t) rfl rfl⟩

end Sys2Proof.Machine
end

section
/-! The subroutine calls and returns, PUSH and POP (45_subroutine_stack.md R348, R350 to R356, R358 to R361). A frame is a list
of nibbles with the offsets from SP at which they are pushed. The statements `calls_in_mk_one_mode`, `calls_in_mk_two_mode`,
`returns`, `push_and_pop` and `return_undoes_call`. -/

namespace Sys2Proof.Machine

/-! ### Nibbles pushed at offsets from SP -/

/-- The nibbles `ps` stored at their offsets from SP, the first one first. -/
def State.pushes (s : State) (ps : List (BitVec 8 × Nibble)) : State := ps.foldl (fun x p => x.setStk p.1 p.2) s

/-- The data memory words of `ps`, in the same order. -/
def State.pushedWords (s : State) (ps : List (BitVec 8 × Nibble)) : List (DAddr × Nibble) :=
  ps.flatMap fun p => s.stackWord p.1 p.2

theorem SameButRam.pushes {u x : State} (h : SameButRam u x) (ps : List (BitVec 8 × Nibble)) :
    SameButRam u (x.pushes ps) := by
  induction ps generalizing x with
  | nil => exact h
  | cons p _ ih => exact ih (h.setStk p.1 p.2)

theorem SameButRam.setPc {u x : State} (h : SameButRam u x) (t : Nat) : SameButRam (u.setPc t) (x.setPc t) :=
  congrArg (fun y : State => y.setPc t) h

theorem SameButRam.moveSp {u x : State} (h : SameButRam u x) (k : BitVec 8) : SameButRam (u.moveSp k) (x.moveSp k) :=
  congrArg (fun y : State => y.moveSp k) h

theorem pushedWords_ram {s : State} (hb : s.sbs.getLsbD 1 = false) (ps : List (BitVec 8 × Nibble)) :
    s.pushedWords ps = ps.map fun p => (s.stkAddr p.1, p.2) := by
  simp only [State.pushedWords, stackWord_ram hb]
  rw [List.map_eq_flatMap]

theorem pushedWords_lost {s : State} (hb : s.sbs.getLsbD 1 = true) (ps : List (BitVec 8 × Nibble)) :
    s.pushedWords ps = [] := by
  simp only [State.pushedWords, stackWord_lost hb, List.flatMap_eq_nil_iff, implies_true]

/-- Different offsets are different addresses. -/
theorem pushedWords_nodup {s : State} {ps : List (BitVec 8 × Nibble)} (hd : (ps.map Prod.fst).Nodup) :
    ((s.pushedWords ps).map Prod.fst).Nodup := by
  cases hb : s.sbs.getLsbD 1 with
  | true => simp only [pushedWords_lost hb, List.map_nil, List.nodup_nil]
  | false =>
    have hinj : Function.Injective s.stkAddr := fun j k => (s.stkAddr_inj j k).mp
    have e : (s.pushedWords ps).map Prod.fst = (ps.map Prod.fst).map s.stkAddr := by
      simp only [pushedWords_ram hb, List.map_map, Function.comp_def]
    exact e ▸ hd.map hinj

/-- Of nibbles pushed on the stack of `s`, the last one is listed first. -/
theorem Wrote.pushes {s x : State} {ws : List (DAddr × Nibble)} (h : Wrote s x ws) (hx : SameButRam s x)
    (ps : List (BitVec 8 × Nibble)) : Wrote s (x.pushes ps) (s.pushedWords ps.reverse ++ ws) := by
  induction ps generalizing x ws with
  | nil => exact h
  | cons p ps ih =>
    have first : Wrote s (x.setStk p.1 p.2) (s.stackWord p.1 p.2 ++ ws) := h.setStk (by rw [hx]) (by rw [hx]) p.1 p.2
    refine (ih first (hx.setStk p.1 p.2)).cast ?_
    simp only [State.pushedWords, List.reverse_cons, List.flatMap_append, List.flatMap_cons, List.flatMap_nil,
      List.append_nil, List.append_assoc]

/-- At different offsets the order of the pushes does not matter. -/
theorem pushes_wrote {s : State} (h : Memory.wf ramDefault ramSize s.ram = true) {ps : List (BitVec 8 × Nibble)}
    (hd : (ps.map Prod.fst).Nodup) : Wrote s (s.pushes ps) (s.pushedWords ps) := by
  have written := ((Wrote.refl s h).pushes (SameButRam.refl s) ps).cast (List.append_nil _)
  refine ⟨written.wf, fun a => (written.words a).trans ?_⟩
  have hr : (ps.reverse.map Prod.fst).Nodup := by
    rw [List.map_reverse]
    exact List.nodup_reverse.mpr hd
  exact wordAfter_perm ((List.reverse_perm ps).flatMap_right _) (pushedWords_nodup hr) s a

/-- SP goes down by an even amount. -/
theorem moveSp_neg {s : State} (h : s.sp.getLsbD 0 = false) {d : BitVec 8} (hd : (-d).getLsbD 0 = false) :
    s.moveSp (-d) = { s with sp := s.sp - d } := by
  rw [moveSp_eq s _ h hd, BitVec.sub_eq_add_neg]

/-- A push: the nibbles `ps` are stored, SP goes down by `d`. -/
theorem pushes_leads {s : State} (hInv : s.Inv) {ps : List (BitVec 8 × Nibble)} (hps : (ps.map Prod.fst).Nodup)
    {d : BitVec 8} (hd : (-d).getLsbD 0 = false) (c : Nat) :
    Leads s { s with sp := s.sp - d } (((s.pushes ps).moveSp (-d)).finish c)
      { s.quiet c with words := s.pushedWords ps } := by
  have same := ((SameButRam.refl s).pushes ps).moveSp (-d)
  rw [moveSp_neg hInv.sp hd] at same
  exact leads_ended s _ _ c _ same rfl rfl ((pushes_wrote hInv.ram hps).congr rfl)

/-! ### The frame of a call -/

/-- The frame of a call in Mk I mode (R350). -/
def State.frameMkI (s : State) : List (BitVec 8 × Nibble) :=
  [(-1, s.pc.extractLsb' 4 4), (-2, s.pc.extractLsb' 0 4), (-3, s.topNibble), (-4, s.pc.extractLsb' 8 4)]

/-- The nibble at the old SP-2 in Mk II mode: two free bits (U8), MBE and RBE (R351). -/
def State.flagsMkII (s : State) : Nibble :=
  (Config.frameFree s.freeCount 1).extractLsb' 2 2 ++ BitVec.ofBool s.mbe ++ BitVec.ofBool s.rbe

/-- The frame of a call in Mk II mode (R351). -/
def State.frameMkII (s : State) : List (BitVec 8 × Nibble) :=
  [(-1, Config.frameFree s.freeCount 0), (-2, s.flagsMkII), (-3, s.pc.extractLsb' 4 4), (-4, s.pc.extractLsb' 0 4),
    (-5, s.topNibble), (-6, s.pc.extractLsb' 8 4)]

/-- The frame of a call in the mode in force. -/
def State.callFrame (s : State) : List (BitVec 8 × Nibble) := if s.mkI then s.frameMkI else s.frameMkII

/-- By how much a call lowers SP and a return raises it. -/
def State.frameSize (s : State) : BitVec 8 := if s.mkI then 4 else 6

theorem saveFrame_eq (s : State) : s.saveFrame s.pc = (s.pushes s.callFrame).moveSp (-s.frameSize) := by
  unfold State.saveFrame State.callFrame State.frameSize
  cases h : s.mkI with
  | true =>
    have top : s.topNibble = s.flagNibble s.pc := if_pos h
    simp only [if_true, State.frameMkI, top]
    rfl
  | false =>
    have top : s.topNibble = 0#2 ++ s.pc.extractLsb' 12 2 := if_neg (by simp [h])
    simp only [Bool.false_eq_true, if_false, State.frameMkII, top]
    rfl

theorem callFrame_offsets (s : State) :
    s.callFrame.map Prod.fst = if s.mkI then [-1, -2, -3, -4] else [-1, -2, -3, -4, -5, -6] := by
  unfold State.callFrame
  split <;> rfl

theorem callFrame_nodup (s : State) : (s.callFrame.map Prod.fst).Nodup := by
  rw [callFrame_offsets]
  split <;> decide

/-- A call writes at most the six nibbles below SP. -/
theorem callFrame_offset_mem {s : State} {p : BitVec 8 × Nibble} (hp : p ∈ s.callFrame) :
    p.1 ∈ ([-1, -2, -3, -4, -5, -6] : List (BitVec 8)) := by
  have offset := List.mem_map_of_mem (f := Prod.fst) hp
  rw [callFrame_offsets] at offset
  split at offset
  · exact List.mem_append_left [-5, -6] offset
  · exact offset

theorem neg_frameSize_even (s : State) : (-s.frameSize).getLsbD 0 = false := by
  unfold State.frameSize
  split <;> rfl

/-- A call: its frame is pushed, PC goes to the target. -/
theorem callTo_leads {s : State} (hInv : s.Inv) (t c : Nat) :
    Leads s { s with sp := s.sp - s.frameSize } (callTo t c s)
      { s.quiet c with words := s.pushedWords s.callFrame, pc := s.truncPc t } := by
  have same := (((SameButRam.refl s).pushes s.callFrame).moveSp (-s.frameSize)).setPc t
  rw [moveSp_neg hInv.sp (neg_frameSize_even s)] at same
  rw [callTo, saveFrame_eq]
  exact leads_ended s _ _ c _ same rfl rfl ((pushes_wrote hInv.ram (callFrame_nodup s)).congr rfl)

/-! ### CALL, CALLA, CALLF and TCALL -/

/-- Settles O30: every form is `callTo` its target; the frame is that of Mk I mode. -/
theorem callsInMkOneMode : Obligations.calls_in_mk_one_mode := by
  unfold Obligations.calls_in_mk_one_mode
  intro s t f hInv hm frame u
  have mode : s.mkI = true := hm
  have words : s.pushedWords s.callFrame = frame := by
    simp only [State.callFrame, mode, if_true, State.frameMkI, State.pushedWords, topNibble_eq, hm, Bool.true_and, frame,
      List.flatMap_cons, List.flatMap_nil, List.append_nil, List.append_assoc]
  have calls := callTo_leads hInv
  rw [words, State.frameSize, if_pos mode] at calls
  have cycles (m n : Nat) : (if s.mkI then m else n) = m := if_pos mode
  refine ⟨?call, ?callf, ?tcall⟩
  case call => exact cycles 3 4 ▸ calls t.toNat 3
  case callf => exact cycles 2 3 ▸ calls f.toNat 2
  case tcall => exact cycles 2 3 ▸ calls t.toNat 2

/-- CALLA in Mk II mode (R353). -/
theorem exec_calla_mkII {s : State} (t : BitVec 15) (hm : s.mkI = false) : exec (.calla t) s = callTo t.toNat 3 s :=
  if_neg (Bool.eq_false_iff.mp hm)

/-- Settles O31: every form is `callTo` its target; the free values are those that the model takes for this frame. -/
theorem callsInMkTwoMode : Obligations.calls_in_mk_two_mode := by
  unfold Obligations.calls_in_mk_two_mode
  intro s t t1 f hInv hm
  refine ⟨Config.frameFree s.freeCount 0, (Config.frameFree s.freeCount 1).extractLsb' 2 2, ?_⟩
  intro frame u
  have mode : s.mkI = false := hm
  have words : s.pushedWords s.callFrame = frame := by
    simp only [State.callFrame, mode, Bool.false_eq_true, if_false, State.frameMkII, State.flagsMkII, State.pushedWords,
      topNibble_eq, hm, Bool.false_and, frame, List.flatMap_cons, List.flatMap_nil, List.append_nil, List.append_assoc]
  have calls := callTo_leads hInv
  have notMkI : ¬ s.mkI = true := Bool.eq_false_iff.mp mode
  rw [words, State.frameSize, if_neg notMkI] at calls
  have cycles (m n : Nat) : (if s.mkI then m else n) = n := if_neg notMkI
  refine ⟨?call, ?calla, ?callf, ?tcall⟩
  case call => exact cycles 3 4 ▸ calls t.toNat 4
  case calla => exact exec_calla_mkII t1 mode ▸ calls t1.toNat 3
  case callf => exact cycles 2 3 ▸ calls f.toNat 3
  case tcall => exact cycles 2 3 ▸ calls t.toNat 3

/-! ### RET and RETS -/

/-- What a return loads beside PC (R350, R351). -/
def State.returned (s : State) : State :=
  if s.sbs.getLsbD 3 then { s with sp := s.sp + 4, mbe := (s.stk 1).getLsbD 3, rbe := (s.stk 1).getLsbD 2 }
  else { s with sp := s.sp + 6, mbe := (s.stk 4).getLsbD 1, rbe := (s.stk 4).getLsbD 0 }

theorem restoreFrame_eq {s : State} (h : s.sp.getLsbD 0 = false) :
    s.restoreFrame = { s.returned with pc := s.truncPc s.frameReturn } := by
  have moved (k : BitVec 8) (hk : k.getLsbD 0 = false) := moveSp_eq (s.setPc s.frameReturn) k h hk
  unfold State.restoreFrame State.returned State.mkI
  split
  · rw [moved 4 rfl]
    rfl
  · rw [moved 6 rfl]
    rfl

theorem returned_eq (s : State) :
    s.returned = { s with sp := s.returned.sp, mbe := s.returned.mbe, rbe := s.returned.rbe } := by
  unfold State.returned
  split <;> rfl

/-- RET: the registers of the frame are loaded, nothing is written. -/
theorem ret_leads {s : State} (hInv : s.Inv) :
    Leads s s.returned (exec .ret s) { s.quiet 3 with pc := s.truncPc s.frameReturn } := by
  show Leads s s.returned (.next (s.restoreFrame.ended 3)) _
  rw [restoreFrame_eq hInv.sp, returned_eq]
  exact leads_ended s _ _ 3 [] (SameButRam.refl _) rfl rfl ((Wrote.refl s hInv.ram).congr rfl)

/-- Settles O32: RETS is RET and then a skip that is always taken. -/
theorem returns : Obligations.returns := by
  unfold Obligations.returns
  intro s n hInv pc u
  refine ⟨ret_leads hInv, fun hn => ?rets⟩
  have hchip : s.returned.chip = s.chip := by rw [returned_eq]
  have hnext : s.restoreFrame.nextHas s.restoreFrame.pc n := by
    rw [restoreFrame_eq hInv.sp, returned_eq]
    exact State.nextHas_congr rfl rfl pc hn
  have skips : exec .rets s = .next ((s.restoreFrame.ended 3).skipped true n) :=
    State.finishSkip_next s.restoreFrame 3 true n fun _ => hnext
  rw [skips]
  exact (ret_leads hInv).skipped s s.returned _ _ true n hchip

/-! ### PUSH and POP -/

/-- A pop: the registers `u` and the words `ws` are loaded, SP goes up by 2. -/
theorem pop_leads {s u x : State} {ws : List (DAddr × Nibble)} (c : Nat) (hu : u.sp.getLsbD 0 = false)
    (hx : SameButRam u x) (hc : u.cycles = s.cycles) (hh : u.ints.holdoff = s.ints.holdoff) (hw : Wrote s x ws) :
    Leads s { u with sp := u.sp + 2 } ((x.moveSp 2).finish c)
      { cycles := c, words := ws, cy := u.cy, pc := u.pc, operand := none } := by
  have same := hx.moveSp 2
  rw [moveSp_eq u 2 hu rfl] at same
  exact leads_ended s _ _ c ws same hc hh (hw.congr rfl)

/-- The low registers of the pairs are at even addresses. -/
theorem regAddr_low_even (b : BitVec 2) (p : Rp) : (regAddr b (rpRegs p).2).getLsbD 0 = false := by
  revert b
  cases p <;> decide

/-- SP is even, so no nibble at an odd offset is the low register of a pair. -/
theorem regAddr_low_ne_stkAddr {s : State} (h : s.sp.getLsbD 0 = false) {k : BitVec 8} (hk : k.getLsbD 0 = true)
    (b : BitVec 2) (p : Rp) : regAddr b (rpRegs p).2 ≠ s.stkAddr k := by
  have odd : (s.stkAddr k).getLsbD 0 = true := by
    unfold State.stkAddr
    rw [BitVec.getLsbD_append]
    simp_all [BitVec.getElem_add]
  intro e
  rw [← e, regAddr_low_even] at odd
  cases odd

/-- A write of the low register of a pair leaves the nibbles at odd offsets. -/
theorem stk_setRegIn_low {s : State} (hInv : s.Inv) {k : BitVec 8} (hk : k.getLsbD 0 = true) (b : BitVec 2) (p : Rp)
    (v : Nibble) : (s.setRegIn b (rpRegs p).2 v).stk k = s.stk k := by
  have same : SameButRam s (s.setRegIn b (rpRegs p).2 v) := (SameButRam.refl s).setRegIn b (rpRegs p).2 v
  have addr : (s.setRegIn b (rpRegs p).2 v).stkAddr k = s.stkAddr k := by rw [same]; rfl
  have free : (s.setRegIn b (rpRegs p).2 v).free4 (s.stkAddr k) = s.free4 (s.stkAddr k) := by rw [same]; rfl
  have word : (s.setRegIn b (rpRegs p).2 v).ramRead (s.stkAddr k) = s.ramRead (s.stkAddr k) :=
    (State.ramRead_ramWrite s hInv.ram _ _ _).trans (if_neg fun h => regAddr_low_ne_stkAddr hInv.sp hk b p h.1.symm)
  rw [State.stk, addr, free, word, State.stk]

/-- Settles O34: PUSH stores its nibbles at two offsets (`pushes_leads`), POP loads them; the stack may lie over the registers,
but not so that the first nibble moved changes the second (`regAddr_low_ne_stkAddr`). -/
theorem pushAndPop : Obligations.push_and_pop := by
  unfold Obligations.push_and_pop
  intro s p rest hInv
  have push (v w : Nibble) := pushes_leads hInv (ps := [(-1, v), (-2, w)]) (by simp) (d := 2) rfl
  simp only [State.pushedWords, List.flatMap_cons, List.flatMap_nil, List.append_nil] at push
  refine ⟨⟨readsBack_of_wf (.pushRp p) rfl rfl rest, ?pushRp⟩, ⟨readsBack_of_wf (.popRp p) rfl rfl rest, ?popRp⟩,
    ⟨readsBack_of_wf .pushBs rfl rfl rest, push s.mbs (0#2 ++ s.rbs) 2⟩,
    ⟨readsBack_of_wf .popBs rfl rfl rest, ?popBs⟩⟩
  case pushRp =>
    have low : (s.setStk (-1) (s.getReg (rpRegs p).1)).ramRead (regAddr s.regBank (rpRegs p).2) = s.getReg (rpRegs p).2 :=
      (State.ramRead_ramWrite s hInv.ram _ _ _).trans (if_neg fun h => regAddr_low_ne_stkAddr hInv.sp rfl _ p h.1)
    have pushed := push (s.getReg (rpRegs p).1) (s.getReg (rpRegs p).2) 1
    rw [← low] at pushed
    rw [← low]
    exact pushed
  case popRp =>
    have written := ((Wrote.refl s hInv.ram).reg s.regBank (rpRegs p).2 (s.stk 0)).reg s.regBank (rpRegs p).1 (s.stk 1)
    have same := ((SameButRam.refl s).setRegIn s.regBank (rpRegs p).2 (s.stk 0)).setRegIn s.regBank (rpRegs p).1 (s.stk 1)
    have popped := pop_leads 1 hInv.sp same rfl rfl written
    rw [← stk_setRegIn_low hInv (k := 1) rfl s.regBank p (s.stk 0)] at popped ⊢
    exact popped
  case popBs =>
    exact pop_leads (u := { s with rbs := (s.stk 0).extractLsb' 0 2, mbs := s.stk 1 }) 2 hInv.sp (SameButRam.refl _) rfl
      rfl ((Wrote.refl s hInv.ram).congr rfl)

/-! ### RET after CALL -/

/-- `t` is `s` after its call frame was pushed, as far as a return looks at it. -/
structure AfterCall (s t : State) : Prop where
  chip : t.chip = s.chip
  sbs : t.sbs = s.sbs
  sp : t.sp = s.sp - s.frameSize
  words : ∀ a, t.ramRead a = wordAfter (s.pushedWords s.callFrame) s a

/-- A word listed once has its listed value. -/
theorem wordAfter_of_mem {ws : List (DAddr × Nibble)} (hd : (ws.map Prod.fst).Nodup) {a : DAddr} {v : Nibble}
    (h : (a, v) ∈ ws) (s : State) : wordAfter ws s a = v := by
  induction ws with
  | nil => cases h
  | cons w ws ih =>
    obtain ⟨hw, hws⟩ := List.nodup_cons.mp hd
    rw [wordAfter_cons]
    rcases List.mem_cons.mp h with rfl | hmem
    · exact if_pos rfl
    · have hne : a ≠ w.1 := fun e => hw (e ▸ List.mem_map_of_mem hmem)
      exact (if_neg hne).trans (ih hws hmem)

/-- A word that is not listed is as before. -/
theorem wordAfter_of_not_mem {ws : List (DAddr × Nibble)} {a : DAddr} (h : ∀ w ∈ ws, a ≠ w.1) (s : State) :
    wordAfter ws s a = s.ramRead a := by
  induction ws with
  | nil => rfl
  | cons w ws ih =>
    rw [wordAfter_cons, if_neg (h w List.mem_cons_self)]
    exact ih fun v hv => h v (List.mem_cons_of_mem w hv)

/-- Where the stack is in RAM, a return finds a nibble of the frame at its offset from the new SP. -/
theorem AfterCall.stk {s t : State} (h : AfterCall s t) (hb : s.sbs.getLsbD 1 = false) {k : BitVec 8} {v : Nibble}
    (hm : (k - s.frameSize, v) ∈ s.callFrame) : t.stk k = v := by
  have offset : t.sp + k = s.sp + (k - s.frameSize) := by rw [h.sp]; bv_omega
  have addr : t.stkAddr k = s.stkAddr (k - s.frameSize) := by rw [State.stkAddr, h.sbs, offset, State.stkAddr]
  have mem : (s.stkAddr (k - s.frameSize), v) ∈ s.pushedWords s.callFrame := by
    rw [pushedWords_ram hb]
    exact List.mem_map.mpr ⟨(k - s.frameSize, v), hm, rfl⟩
  rw [State.stk, addr, isRam_stkAddr, hb, h.words]
  exact wordAfter_of_mem (pushedWords_nodup (callFrame_nodup s)) mem s

/-- The four nibbles above the new SP are the same in both modes (R350, R351). -/
theorem callFrame_return_nibbles (s : State) :
    (0 - s.frameSize, s.pc.extractLsb' 8 4) ∈ s.callFrame ∧ (1 - s.frameSize, s.topNibble) ∈ s.callFrame ∧
    (2 - s.frameSize, s.pc.extractLsb' 0 4) ∈ s.callFrame ∧ (3 - s.frameSize, s.pc.extractLsb' 4 4) ∈ s.callFrame := by
  unfold State.callFrame State.frameSize
  cases s.mkI with
  | true => simp [State.frameMkI]
  | false => simp [State.frameMkII]

/-- After a call, PC is found. -/
theorem AfterCall.restores_pc {s t : State} (h : AfterCall s t) (hInv : s.Inv) (hb : s.sbs.getLsbD 1 = false) :
    t.truncPc t.frameReturn = s.pc := by
  obtain ⟨h0, h1, h2, h3⟩ := callFrame_return_nibbles s
  rw [State.frameReturn, h.stk hb h0, h.stk hb h1, h.stk hb h2, h.stk hb h3, pc_of_frame, State.truncPc, h.chip]
  exact truncPc_pc hInv

/-- After a call, MBE, RBE and SP are restored; the flags are in the nibble at SP+1 in Mk I mode, in that at SP+4 in Mk II mode. -/
theorem AfterCall.restores_registers {s t : State} (h : AfterCall s t) (hb : s.sbs.getLsbD 1 = false) :
    t.returned.mbe = s.mbe ∧ t.returned.rbe = s.rbe ∧ t.returned.sp = s.sp := by
  have hsp := h.sp
  unfold State.returned
  rw [h.sbs]
  cases mode : s.mkI with
  | true =>
    have hm : s.sbs.getLsbD 3 = true := mode
    obtain ⟨-, top, -, -⟩ := callFrame_return_nibbles s
    have flags : t.stk 1 = nib s.mbe s.rbe (s.pc.getLsbD 13) (s.pc.getLsbD 12) := by
      rw [h.stk hb top, topNibble_eq, hm, Bool.true_and, Bool.true_and]
    obtain ⟨mbe, rbe, -, -⟩ := nib_bits s.mbe s.rbe (s.pc.getLsbD 13) (s.pc.getLsbD 12)
    rw [State.frameSize, if_pos mode] at hsp
    rw [if_pos hm, flags, hsp]
    exact ⟨mbe, rbe, BitVec.sub_add_cancel _ _⟩
  | false =>
    have hm : ¬ s.sbs.getLsbD 3 = true := Bool.eq_false_iff.mp mode
    have flags : t.stk 4 = s.flagsMkII := h.stk hb (by simp [State.callFrame, State.frameSize, mode, State.frameMkII])
    obtain ⟨-, mbe, rbe⟩ := pswLow_fields { s with ist := (Config.frameFree s.freeCount 1).extractLsb' 2 2 }
    rw [State.frameSize, if_neg (Bool.eq_false_iff.mp mode)] at hsp
    rw [if_neg hm, flags, hsp]
    exact ⟨mbe, rbe, BitVec.sub_add_cancel _ _⟩

/-- Where the stack is in RAM, the words outside the six nibbles below SP are as before the call. -/
theorem callFrame_other {s : State} (hb : s.sbs.getLsbD 1 = false) (x : DAddr)
    (hx : ∀ k ∈ ([-1, -2, -3, -4, -5, -6] : List (BitVec 8)), x ≠ s.stkAddr k) :
    wordAfter (s.pushedWords s.callFrame) s x = s.ramRead x := by
  refine wordAfter_of_not_mem (fun w hw => ?_) s
  rw [pushedWords_ram hb] at hw
  obtain ⟨p, hp, rfl⟩ := List.mem_map.mp hw
  exact hx p.1 (callFrame_offset_mem hp)

/-- Settles O35: RET finds what the call has pushed (`AfterCall.restores_pc`, `AfterCall.restores_registers`) and writes
nothing. -/
theorem returnUndoesCall : Obligations.return_undoes_call := by
  unfold Obligations.return_undoes_call
  intro s t u a hInv hb ht hu
  have htInv : t.Inv := (exec_keeps (.call a) s t ht).inv hInv
  obtain ⟨t', ht', called, words⟩ := callTo_leads hInv a.toNat (if s.mkI then 3 else 4)
  obtain ⟨u', hu', returned, same⟩ := ret_leads htInv
  cases ht'.symm.trans ht
  cases hu'.symm.trans hu
  have pushed : AfterCall s t := ⟨by rw [called], by rw [called], by rw [called], words⟩
  obtain ⟨hmbe, hrbe, hsp⟩ := pushed.restores_registers hb
  exact ⟨(congrArg State.pc returned).trans (pushed.restores_pc hInv hb), (congrArg State.mbe returned).trans hmbe,
    (congrArg State.rbe returned).trans hrbe, (congrArg State.sp returned).trans hsp, fun x hx =>
      (same x).trans ((words x).trans (callFrame_other hb x hx))⟩

end Sys2Proof.Machine
end

section
/-! NOP, SEL and GETI (46_cpu_control_io_geti.md R394 to R396, R400 to R405). GETI is `getiAt` its table address: the entry
is decoded, and what it holds is executed by its own meaning after one machine cycle, the skip state cleared. The statements
`nop_and_bank_selection` and `geti_runs_its_entry`. -/

namespace Sys2Proof.Machine

/-! ### NOP and SEL (R394 to R396) -/

/-- Settles O28: each is the end of an instruction after at most one register was set, with data memory not written. -/
theorem nopAndBankSelection : Obligations.nop_and_bank_selection := by
  unfold Obligations.nop_and_bank_selection
  intro s n m hInv
  have written := Wrote.refl s hInv.ram
  refine ⟨?nop, ?selRb, ?selMb⟩
  case nop => exact does_finish 1 (SameButRam.refl s) written
  case selRb => exact leads_ended s { s with rbs := n } _ 2 [] (SameButRam.refl _) rfl rfl (written.congr rfl)
  case selMb => exact leads_ended s { s with mbs := m } _ 2 [] (SameButRam.refl _) rfl rfl (written.congr rfl)

/-! ### What a table entry holds (R402, R404) -/

/-- Mark 00: TBR (D9). -/
theorem decodeEntry_tbr {e0 : Byte} (e1 : Byte) (h : e0.extractLsb' 6 2 = 0#2) :
    decodeEntry e0 e1 = .one (.tbr (e0.extractLsb' 0 6 ++ e1)) := by
  have mark : e0.getLsbD 7 = false ∧ e0.getLsbD 6 = false := by revert e0; decide
  obtain ⟨h7, h6⟩ := mark
  unfold decodeEntry
  rw [h7, h6]
  rfl

/-- Mark 01: TCALL (D9). -/
theorem decodeEntry_tcall {e0 : Byte} (e1 : Byte) (h : e0.extractLsb' 6 2 = 1#2) :
    decodeEntry e0 e1 = .one (.tcall (e0.extractLsb' 0 6 ++ e1)) := by
  have mark : e0.getLsbD 7 = false ∧ e0.getLsbD 6 = true := by revert e0; decide
  obtain ⟨h7, h6⟩ := mark
  unfold decodeEntry
  rw [h7, h6]
  rfl

theorem decodeEntry_two_bytes {e0 e1 : Byte} {i : Instr} (h7 : e0.getLsbD 7 = true) (hl : lengthOf e0 = some 2)
    (hi : decode2 e0 e1 = some i) : decodeEntry e0 e1 = .one i := by
  simp [decodeEntry, h7, hl, hi]

/-- The first bytes of the allowed pairs (R404). -/
def pairFirst : List Byte := [0xE1, 0xE8, 0xE9, 0xE4, 0xEC, 0xE5, 0xED]

/-- The second bytes of the allowed pairs (R404). -/
def pairSecond : List Byte := [0xC2, 0xCA, 0xC3, 0xCB, 0x8A, 0xC4, 0xCC, 0xC5, 0xCD, 0x8C]

theorem allowedPair_bytes {e0 e1 : Byte} (h : allowedPair e0 e1 = true) : e0 ∈ pairFirst ∧ e1 ∈ pairSecond := by
  simp only [allowedPair, Bool.or_eq_true, Bool.and_eq_true, beq_iff_eq] at h
  simp only [pairFirst, pairSecond, List.mem_cons, List.not_mem_nil, or_false]
  grind

theorem allowedPair_first {e0 e1 : Byte} (h : allowedPair e0 e1 = true) :
    e0.getLsbD 7 = true ∧ lengthOf e0 = some 1 := by
  have first : ∀ b ∈ pairFirst, b.getLsbD 7 = true ∧ lengthOf b = some 1 := by decide
  exact first e0 (allowedPair_bytes h).1

theorem decodeEntry_pair {e0 e1 : Byte} {i j : Instr} (h : allowedPair e0 e1 = true) (hi : decode1 e0 = some i)
    (hj : decode1 e1 = some j) : decodeEntry e0 e1 = .two i j := by
  obtain ⟨h7, hl⟩ := allowedPair_first h
  simp [decodeEntry, h7, hl, h, hi, hj]

theorem decodeEntry_other {e0 e1 : Byte} (h7 : e0.getLsbD 7 = true) (hl : lengthOf e0 ≠ some 2)
    (hp : allowedPair e0 e1 = false) : decodeEntry e0 e1 = .other := by
  simp [decodeEntry, h7, hl, hp]

/-! ### What is executed from an entry (R403, R404) -/

/-- Whether `i` is executed from an entry does not depend on the state. -/
theorem runEntry_isSome {i : Instr} {t : State} (h : (runEntry i t).isSome = true) (s : State) :
    (runEntry i s).isSome = true := by
  cases i <;> cases h <;> rfl

/-- What is executed from an entry is executed by its own meaning, in every state. -/
theorem runEntry_eq_some {i : Instr} {t : State} (h : (runEntry i t).isSome = true) (s : State) :
    runEntry i s = some (exec i s) := by
  obtain ⟨r, hr⟩ := Option.isSome_iff_exists.mp (runEntry_isSome h s)
  exact hr.trans (congrArg some (runEntry_eq_exec hr).1)

/-- The codes of two bytes from 80H on that a table entry may not hold: the branches after 99H, and no instruction. -/
def isBarred : Instr → Bool
  | .brPcde | .brPcxa | .brBcde | .brBcxa | .unassigned _ _ => true
  | _ => false

theorem isBarred_iff (i : Instr) : isBarred i = true ↔
    i = .brPcde ∨ i = .brPcxa ∨ i = .brBcde ∨ i = .brBcxa ∨ ∃ b1 b2, i = .unassigned b1 b2 := by
  cases i <;> simp [isBarred]

theorem runEntry_barred {i : Instr} (h : isBarred i = true) (s : State) : runEntry i s = none := by
  obtain rfl | rfl | rfl | rfl | ⟨_, _, rfl⟩ := (isBarred_iff i).mp h <;> rfl

/-- `i` is executed from an entry, or barred from it. -/
def runsOrBarred (i : Instr) : Bool := (runEntry i State.reset).isSome || isBarred i

theorem runEntry_of_runsOrBarred {i : Instr} (h : runsOrBarred i = true) (hb : isBarred i = false) (s : State) :
    runEntry i s = some (exec i s) := by
  rw [runsOrBarred, hb, Bool.or_false] at h
  exact runEntry_eq_some h s

theorem decode99_runsOrBarred : ∀ b, runsOrBarred (decode99 b) = true := by decide

theorem decode9A_runsOrBarred : ∀ b, runsOrBarred (decode9A b) = true := by decide

theorem decodeAA_runsOrBarred : ∀ b, runsOrBarred (decodeAA b) = true := by decide

theorem decodeSet1_runsOrBarred : ∀ hi f b, runsOrBarred (decodeSet1 hi f b) = true := by decide

theorem decodeClr1_runsOrBarred : ∀ hi f b, runsOrBarred (decodeClr1 hi f b) = true := by decide

theorem decodeBitForm_runsOrBarred {F : Bool → Nibble → BitVec 2 → Instr} {P : Nibble → Instr}
    {H : Nibble → BitVec 2 → Instr} (hF : ∀ hi f b, runsOrBarred (F hi f b) = true) (hP : ∀ g, runsOrBarred (P g) = true)
    (hH : ∀ d b, runsOrBarred (H d b) = true) (b2 : Byte) : runsOrBarred (decodeBitForm F P H b2) = true := by
  unfold decodeBitForm
  dsimp only
  split
  · exact hF _ _ _
  · split
    · exact hP _
    · exact hH _ _

theorem decodeBit_runsOrBarred (b1 b2 : Byte) : runsOrBarred (decodeBit b1 b2) = true := by
  unfold decodeBit
  split
  · rfl
  · split
    any_goals exact decodeBitForm_runsOrBarred (fun _ _ _ => rfl) (fun _ => rfl) (fun _ _ => rfl) b2
    -- CLR1 and SET1 fmem.bit may have other spellings
    · exact decodeBitForm_runsOrBarred decodeClr1_runsOrBarred (fun _ => rfl) (fun _ _ => rfl) b2
    · exact decodeBitForm_runsOrBarred decodeSet1_runsOrBarred (fun _ => rfl) (fun _ _ => rfl) b2

/-- An answer that depends on how an operand is spelled (R147). -/
theorem runsOrBarred_of_ite {c : Prop} [Decidable c] {x y i : Instr} (h : (if c then some x else some y) = some i)
    (hx : runsOrBarred x = true) (hy : runsOrBarred y = true) : runsOrBarred i = true := by
  split at h
  · cases h; exact hx
  · cases h; exact hy

/-- The first bytes from 80H on that ask for one byte more have a row of their own in the table (R122, R123). -/
theorem twoByteFirst_listed : ∀ b : Byte, b.getLsbD 7 = true → lengthOf b = some 2 → bitFirst b = false →
    b.toNat ∈ [0x82, 0x84, 0x85, 0x86, 0x87, 0x89, 0x8B, 0x8D, 0x8F, 0x92, 0x93, 0x94, 0x95, 0x96, 0x97, 0x99, 0x9A, 0xA2,
      0xA3, 0xA4, 0xA5, 0xA6, 0xA7, 0xAA, 0xB2, 0xB3, 0xB4, 0xB5, 0xB6, 0xB7, 0xB9] := by decide

/-- CALLF and BRCB, the codes of two bytes that an entry cannot spell, lie below 80H. -/
theorem decode2_runsOrBarred {b1 b2 : Byte} {i : Instr} (h7 : b1.getLsbD 7 = true) (hl : lengthOf b1 = some 2)
    (h : decode2 b1 b2 = some i) : runsOrBarred i = true := by
  unfold decode2 at h
  dsimp only at h
  split at h
  · cases h; exact decodeBit_runsOrBarred b1 b2
  · next hbit =>
    have listed := twoByteFirst_listed b1 h7 hl (Bool.eq_false_iff.mpr hbit)
    split at h
    -- the forms that may have any operand byte, then those with two spellings
    any_goals (cases h; rfl)
    any_goals exact runsOrBarred_of_ite h rfl rfl
    · cases h; exact decode99_runsOrBarred b2
    · cases h; exact decode9A_runsOrBarred b2
    · cases h; exact decodeAA_runsOrBarred b2
    -- the rows of ABH, BAH and BBH and the one of CALLF and BRCB
    all_goals exact absurd listed (by simp_all)

/-- The members of an allowed pair are executed from an entry. -/
theorem allowedPair_runs {e0 e1 : Byte} {i j : Instr} (h : allowedPair e0 e1 = true) (hi : decode1 e0 = some i)
    (hj : decode1 e1 = some j) (s : State) : runEntry i s = some (exec i s) ∧ runEntry j s = some (exec j s) := by
  have runs : ∀ b ∈ pairFirst ++ pairSecond, ∀ i ∈ decode1 b, (runEntry i State.reset).isSome = true := by decide
  obtain ⟨h0, h1⟩ := allowedPair_bytes h
  exact ⟨runEntry_eq_some (runs e0 (List.mem_append_left _ h0) i hi) s,
    runEntry_eq_some (runs e1 (List.mem_append_right _ h1) j hj) s⟩

/-! ### The bytes of an entry, decoded -/

theorem decode_one_iff {b : Byte} {rest : List Byte} {i : Instr} :
    decode (b :: rest) = .ok (i, rest) ↔ decode1 b = some i := by
  refine ⟨fun h => ?_, decode_one rest⟩
  obtain ⟨_, e, h1⟩ | ⟨_, _, e, -⟩ | ⟨_, _, _, e, -⟩ := decode_cases h
  · cases e; exact h1
  all_goals exact absurd (congrArg List.length e) (by simp)

theorem decode2_of_decode {e0 e1 : Byte} {i : Instr} (h : decode [e0, e1] = .ok (i, [])) : decode2 e0 e1 = some i := by
  obtain ⟨_, e, -⟩ | ⟨_, _, e, h2⟩ | ⟨_, _, _, e, -⟩ := decode_cases h
  · cases e
  · cases e; exact h2
  · cases e

/-! ### GETI -/

section
variable {s : State} {a : Nat} {e0 e1 : Byte} (h0 : s.romByte a = some e0) (h1 : s.romByte (a + 1) = some e1)
include h0 h1

theorem getiAt_one {i : Instr} (he : decodeEntry e0 e1 = .one i) :
    getiAt a s = (runEntry i (s.after 1)).getD (.refused (.getiEntry e0 e1)) := by
  simp only [getiAt, h0, h1, he]
  rfl

theorem getiAt_two {i j : Instr} (he : decodeEntry e0 e1 = .two i j) :
    getiAt a s = andThen ((runEntry i (s.after 1)).getD (.refused (.getiEntry e0 e1)))
      fun t => (runEntry j t).getD (.refused (.getiEntry e0 e1)) := by
  simp only [getiAt, h0, h1, he]
  rfl

theorem getiAt_other (he : decodeEntry e0 e1 = .other) : getiAt a s = .refused (.getiEntry e0 e1) := by
  simp only [getiAt, h0, h1, he]

/-- A TBR entry: two of the three cycles are those of the branch (log 34). -/
theorem getiAt_tbr (hm : e0.extractLsb' 6 2 = 0#2) :
    getiAt a s = jump (e0.extractLsb' 0 6 ++ e1 : BitVec 14).toNat 3 s := by
  rw [getiAt_one h0 h1 (decodeEntry_tbr e1 hm)]
  rfl

theorem getiAt_tcall (hm : e0.extractLsb' 6 2 = 1#2) :
    getiAt a s = exec (.tcall (e0.extractLsb' 0 6 ++ e1)) (s.after 1) := by
  rw [getiAt_one h0 h1 (decodeEntry_tcall e1 hm)]
  rfl

theorem getiAt_two_bytes {i : Instr} (h7 : e0.getLsbD 7 = true) (hl : lengthOf e0 = some 2)
    (hi : decode2 e0 e1 = some i) (hb : isBarred i = false) : getiAt a s = exec i (s.after 1) := by
  rw [getiAt_one h0 h1 (decodeEntry_two_bytes h7 hl hi),
    runEntry_of_runsOrBarred (decode2_runsOrBarred h7 hl hi) hb]
  rfl

theorem getiAt_barred {i : Instr} (h7 : e0.getLsbD 7 = true) (hl : lengthOf e0 = some 2) (hi : decode2 e0 e1 = some i)
    (hb : isBarred i = true) : getiAt a s = .refused (.getiEntry e0 e1) := by
  rw [getiAt_one h0 h1 (decodeEntry_two_bytes h7 hl hi), runEntry_barred hb]
  rfl

theorem getiAt_pair {i j : Instr} (hp : allowedPair e0 e1 = true) (hi : decode1 e0 = some i) (hj : decode1 e1 = some j) :
    getiAt a s = andThen (exec i (s.after 1)) (exec j) := by
  have runs := allowedPair_runs hp hi hj
  have second : (fun t => (runEntry j t).getD (.refused (.getiEntry e0 e1))) = exec j :=
    funext fun t => by rw [(runs t).2]; rfl
  rw [getiAt_two h0 h1 (decodeEntry_pair hp hi hj), second, (runs _).1]
  rfl

end

/-! ### A call after the skip state was cleared (R405) -/

theorem ramWrite_ended (s : State) (c : Nat) (a : DAddr) (v : Nibble) :
    (s.ended c).ramWrite a v = (s.ramWrite a v).ended c := by
  unfold State.ramWrite
  split <;> rfl

theorem pushes_ended (s : State) (c : Nat) (ps : List (BitVec 8 × Nibble)) :
    (s.ended c).pushes ps = (s.pushes ps).ended c := by
  induction ps generalizing s with
  | nil => rfl
  | cons p ps ih => exact (congrArg (·.pushes ps) (ramWrite_ended s c (s.stkAddr p.1) p.2)).trans (ih _)

/-- A call does not look at the skip state, and leaves none. -/
theorem callTo_ended_zero (t n : Nat) (s : State) : callTo t n (s.ended 0) = callTo t n s := by
  have frame : (s.ended 0).callFrame = s.callFrame := rfl
  rw [callTo, callTo, saveFrame_eq, saveFrame_eq, frame, pushes_ended]
  rfl

theorem exec_tcall_after (t : BitVec 14) (s : State) (c : Nat) :
    exec (.tcall t) (s.after c) = exec (.tcall t) { s with cycles := s.cycles + c } :=
  callTo_ended_zero t.toNat (if s.mkI then 2 else 3) { s with cycles := s.cycles + c }

/-- A byte from 80H on asks for two bytes, if one that lies neither in 4nH nor in 5nH does. -/
theorem top_of_two_bytes : ∀ b : Byte, lengthOf b = some 2 → b.extractLsb' 4 4 ≠ 4#4 → b.extractLsb' 4 4 ≠ 5#4 →
    b.getLsbD 7 = true := by decide

/-- Settles O36: GETI is `getiAt` its address, and each kind of entry has its equation above. -/
theorem getiRunsItsEntry : Obligations.geti_runs_its_entry := by
  unfold Obligations.geti_runs_its_entry
  intro s e0 e1 g a hInv hg h0 h1 target
  have geti : exec g s = getiAt a s := by
    obtain ⟨t, rfl, rfl⟩ | ⟨t, rfl, rfl⟩ := hg <;> rfl
  rw [geti]
  refine ⟨?tbr, ?tcall, ?twoBytes, ?pair, ?refused⟩
  case tbr =>
    intro hm
    rw [getiAt_tbr h0 h1 hm]
    exact jump_does s target.toNat 3
  case tcall =>
    intro hm
    rw [getiAt_tcall h0 h1 hm]
    have hInv1 : (s.after 1).Inv := ((Keeps.refl true s).ended 1).inv hInv
    obtain ⟨t, ht, called, -⟩ := callTo_leads hInv1 target.toNat (if s.mkI then 2 else 3)
    refine ⟨exec_tcall_after target s 1, t, ht, congrArg State.pc called, (congrArg State.cycles called).trans ?_⟩
    show s.cycles + 1 + (if s.sbs.getLsbD 3 then 2 else 3) = s.cycles + (if s.sbs.getLsbD 3 then 3 else 4)
    split <;> rfl
  case twoBytes =>
    intro i hd hl h4 h5 hde hxa hbde hbxa hun
    have allowed : isBarred i = false := by
      rw [Bool.eq_false_iff, ne_eq, isBarred_iff]
      rintro (e | e | e | e | ⟨b1, b2, e⟩)
      exacts [hde e, hxa e, hbde e, hbxa e, hun b1 b2 e]
    exact getiAt_two_bytes h0 h1 (top_of_two_bytes e0 hl h4 h5) hl (decode2_of_decode hd) allowed
  case pair =>
    intro i j hp hi hj
    exact getiAt_pair h0 h1 hp (decode_one_iff.mp hi) (decode_one_iff.mp hj)
  case refused =>
    intro h7 hx
    have notPair (hl : lengthOf e0 ≠ some 1) : allowedPair e0 e1 = false :=
      Bool.eq_false_iff.mpr fun hp => hl (allowedPair_first hp).2
    have other {l} (hl : lengthOf e0 = l) (h2 : l ≠ some 2) (hp : allowedPair e0 e1 = false) :=
      getiAt_other h0 h1 (decodeEntry_other h7 (hl ▸ h2) hp)
    obtain hl | hl | ⟨hl, hp⟩ | ⟨hl, i, hd, hb⟩ := hx
    · exact other hl (by decide) (notPair (by simp [hl]))
    · exact other hl (by decide) (notPair (by simp [hl]))
    · exact other hl (by decide) hp
    · exact getiAt_barred h0 h1 h7 hl (decode2_of_decode hd) ((isBarred_iff i).mpr hb)

end Sys2Proof.Machine
end

section
/-! Exchanges with data memory, AND, OR and XOR (41_transfer.md R181, R184 to R187; 42_arithmetic_logic.md R224 to R235). The
statements `memory_exchanges` and `logic_operations`. -/

namespace Sys2Proof.Machine

/-! ### Exchanges (R181, R184 to R187) -/

/-- Settles O9: every form is `exchangeA` or `exchangeXa` at its address, and the 8-bit addresses are even. -/
theorem memoryExchanges : Obligations.memory_exchanges := by
  unfold Obligations.memory_exchanges
  intro s q m hInv
  constructor
  · intro i a c hm
    have hexec : exec i s = exchangeA a c s := by
      refine forall_triple_mem (fun i a c => exec i s = exchangeA a c s) _ ?_ i a c hm
      simp only [List.forall_mem_cons]
      exact ⟨rfl, rfl, rfl, List.forall_mem_nil _⟩
    rw [hexec]
    exact ⟨exchangeA_does s hInv.ram a c, fun ha u hu => exchangeA_io s u a c ha hu⟩
  · intro i a hm
    obtain ⟨hexec, heven⟩ : exec i s = exchangeXa a 2 s ∧ a.getLsbD 0 = false := by
      refine forall_pair_mem (fun i a => exec i s = exchangeXa a 2 s ∧ a.getLsbD 0 = false) _ ?_ i a hm
      simp only [List.forall_mem_cons]
      exact ⟨⟨rfl, eaHl8_even s⟩, ⟨rfl, eaMem8_even s m⟩, List.forall_mem_nil _⟩
    rw [hexec]
    exact ⟨exchangeXa_does s hInv.ram a 2 heven, fun ha u hu => exchangeXa_io s u a 2 ha hu⟩

/-! ### AND, OR, XOR (R224 to R235) -/

/-- `NOT A` is the exclusive OR with FH (R237). -/
theorem complement_eq_xor_ones (a : Nibble) : ~~~a = a ^^^ 15 := by
  revert a
  decide

/-- Settles O12: the four shapes `accAImm`, `accA`, `accXa` and `accRp`, each with AND, OR and XOR; each code is read back. -/
theorem logicOperations : Obligations.logic_operations := by
  unfold Obligations.logic_operations
  intro s n p rest hInv m a xa q
  have notXa : p ≠ .xa → (p != .xa) = true := bne_iff_ne.mpr
  have imm (f) := accAImm_does f s hInv.ram n
  have hl (f) := accA_does f s hInv.ram s.eaHl
  have toXa (f) := accXa_does f s hInv.ram p
  have toRp (f) := accRp_does f s hInv.ram p
  refine ⟨⟨readsBack_of_wf (.andAImm n) rfl rfl rest, imm (· &&& ·)⟩,
    ⟨readsBack_of_wf .andAHl rfl rfl rest, hl (· &&& ·)⟩,
    ⟨readsBack_of_wf (.andXaRp p) rfl rfl rest, toXa (· &&& ·)⟩,
    ⟨fun hp => readsBack_of_wf (.andRpXa p) (notXa hp) rfl rest, toRp (· &&& ·)⟩,
    ⟨readsBack_of_wf (.orAImm n) rfl rfl rest, imm (· ||| ·)⟩,
    ⟨readsBack_of_wf .orAHl rfl rfl rest, hl (· ||| ·)⟩,
    ⟨readsBack_of_wf (.orXaRp p) rfl rfl rest, toXa (· ||| ·)⟩,
    ⟨fun hp => readsBack_of_wf (.orRpXa p) (notXa hp) rfl rest, toRp (· ||| ·)⟩,
    ⟨fun hn => readsBack_of_wf (.xorAImm n) (bne_iff_ne.mpr hn) rfl rest, imm (· ^^^ ·)⟩,
    ⟨readsBack_of_wf .notA rfl rfl rest, ?not⟩,
    ⟨readsBack_of_wf .xorAHl rfl rfl rest, hl (· ^^^ ·)⟩,
    ⟨readsBack_of_wf (.xorXaRp p) rfl rfl rest, toXa (· ^^^ ·)⟩,
    ⟨fun hp => readsBack_of_wf (.xorRpXa p) (notXa hp) rfl rest, toRp (· ^^^ ·)⟩⟩
  case not =>
    rw [← complement_eq_xor_ones]
    exact does_setReg s hInv.ram .a (~~~a) 2

end Sys2Proof.Machine
end

section
/-! HALT, STOP and PCC; which interrupt a boundary accepts; the edge detectors with the INT0 noise eliminator
(60_exceptions.md R423 to R435, R450, R451; 65_peripherals.md R512). The statements `halt_and_stop`, `interrupt_acceptance`
and `edges_set_requests`. -/

namespace Sys2Proof.Machine

/-! ### HALT, STOP and a write of PCC (R390, R391, R451, R512) -/

/-- Setting PCC.2 and PCC.3, bit by bit. -/
theorem or_eq_withBit (v : Nibble) : v ||| 0x4 = withBit v 2 true ∧ v ||| 0x8 = withBit v 3 true := by
  revert v
  decide

/-- `s` in the CPU mode `m`, with `p` in PCC. -/
def State.withPcc (s : State) (m : Standby) (p : Nibble) : State :=
  { s with standby := m, clk := { s.clk with pcc := p } }

@[simp] theorem withPcc_pcc (s : State) (m : Standby) (p : Nibble) : (s.withPcc m p).clk.pcc = p := rfl
@[simp] theorem withPcc_withPcc (s : State) (m n : Standby) (p q : Nibble) :
    (s.withPcc m p).withPcc n q = s.withPcc n q := rfl

theorem enterHalt_eq (s : State) : s.enterHalt = s.withPcc .halt (withBit s.clk.pcc 2 true) := by
  rw [← (or_eq_withBit s.clk.pcc).1]
  rfl

/-- STOP on the main system clock. -/
theorem enterStop_eq {s : State} (h0 : s.clk.scc0 = false) (hp : s.clk.phi.sub = false) :
    s.enterStop = .next (s.withPcc .stop (withBit s.clk.pcc 3 true)) := by
  rw [← (or_eq_withBit s.clk.pcc).2, State.enterStop, h0, hp]
  rfl

/-- The two clock selection bits with the one standby bit that is written (R512). -/
theorem withBit_select (v : Nibble) :
    (v.getLsbD 3 = false → v.getLsbD 2 = true → withBit (v &&& 0x3) 2 true = v) ∧
    (v.getLsbD 3 = true → v.getLsbD 2 = false → withBit (v &&& 0x3) 3 true = v) := by
  revert v
  decide

/-- A write of PCC with bits 3 and 2 equal only selects the clock. -/
theorem writePcc_select (s : State) {v : Nibble} (h : v.getLsbD 3 = v.getLsbD 2) :
    s.writePcc v = .next (s.withPcc s.standby (v &&& 0x3)) := by
  unfold State.writePcc
  rw [h]
  cases v.getLsbD 2 <;> rfl

theorem writePcc_halt (s : State) {v : Nibble} (h3 : v.getLsbD 3 = false) (h2 : v.getLsbD 2 = true) :
    s.writePcc v = .next (s.withPcc .halt v) := by
  have halted : s.writePcc v = .next (s.withPcc s.standby (v &&& 0x3)).enterHalt := by
    unfold State.writePcc
    rw [h3, h2]
    rfl
  rw [halted, enterHalt_eq, withPcc_pcc, withPcc_withPcc, (withBit_select v).1 h3 h2]

theorem writePcc_stop {s : State} {v : Nibble} (h3 : v.getLsbD 3 = true) (h2 : v.getLsbD 2 = false)
    (h0 : s.clk.scc0 = false) (hp : s.clk.phi.sub = false) : s.writePcc v = .next (s.withPcc .stop v) := by
  have stopped : s.writePcc v = (s.withPcc s.standby (v &&& 0x3)).enterStop := by
    unfold State.writePcc
    rw [h3, h2]
    rfl
  rw [stopped, enterStop_eq (s := s.withPcc s.standby (v &&& 0x3)) h0 hp, withPcc_pcc, withPcc_withPcc,
    (withBit_select v).2 h3 h2]

/-- Settles O27: HALT and STOP by `haltCpu_eq` and `stopCpu_cases`, the write of PCC by its bits 3 and 2. -/
theorem haltAndStop : Obligations.halt_and_stop := by
  unfold Obligations.halt_and_stop
  intro s
  refine ⟨?halt, fun h0 hp => ?stop, fun h => ?refused, fun b x => rfl, fun v => ?pcc⟩
  case halt =>
    have halted := haltCpu_eq s
    rw [enterHalt_eq] at halted
    exact halted
  case stop =>
    obtain ⟨hr, -⟩ | ⟨t, ht, hstop⟩ := stopCpu_cases s
    · cases hr.symm.trans (enterStop_eq h0 hp)
    · cases ht.symm.trans (enterStop_eq h0 hp)
      exact hstop
  case refused =>
    have hr := enterStop_refused s (by simpa using h)
    obtain ⟨-, hstop⟩ | ⟨t, ht, -⟩ := stopCpu_cases s
    · exact hstop
    · cases hr.symm.trans ht
  case pcc =>
    exact ⟨writePcc_select s, writePcc_halt s, writePcc_stop, writePcc_refused s v⟩

/-! ### Acceptance (R423, R433 to R435, R456) -/

theorem vrq_iff (s : State) (q : Flags) (n : Nat) : s.vrq q n = true ↔ vectoredRequest q s.ints.ie n := by
  unfold State.vrq vectoredRequest
  split <;> simp

/-- There are six vectored interrupts. -/
theorem vectoredRequest_mem {q e : Flags} {n : Nat} (h : vectoredRequest q e n) : n ∈ List.range' 1 6 := by
  unfold vectoredRequest at h
  split at h
  case h_7 => exact h.elim
  all_goals decide

theorem heldOff_eq_false (s : State) : s.heldOff = false ↔ s.ints.holdoff = false ∧ s.ints.releaseHold = 0 := by
  simp [State.heldOff]

theorem acceptable_iff (s : State) (n : Nat) : s.acceptable n = true ↔ s.ints.ime = true ∧
    vectoredRequest (s.ints.irq.and s.ints.visible) s.ints.ie n ∧
      (s.ist = 0 ∨ (s.ist = 1 ∧ s.ints.ips.toNat = n)) := by
  rw [← vrq_iff]
  simp [State.acceptable, and_assoc]

/-- The list of the six interrupts is searched from the smallest n up (D12). -/
theorem find_acceptable_iff (s : State) (n : Nat) : [1, 2, 3, 4, 5, 6].find? s.acceptable = some n ↔
    s.acceptable n = true ∧ ∀ k < n, ¬ s.acceptable k = true := by
  have listed {k} (h : s.acceptable k = true) : k ∈ List.range' 1 6 :=
    vectoredRequest_mem ((acceptable_iff s k).mp h).2.1
  show (List.range' 1 6).find? s.acceptable = some n ↔ _
  simp only [List.find?_range'_eq_some, Bool.not_eq_true']
  refine and_congr_right fun hn => ⟨fun ⟨_, h⟩ k hk ha => ?_, fun h => ⟨listed hn, fun k _ hk => ?_⟩⟩
  · have one_le : 1 ≤ k := (List.mem_range'_1.mp (listed ha)).1
    exact Bool.false_ne_true ((h k one_le hk).symm.trans ha)
  · exact Bool.eq_false_iff.mpr (h k hk)

/-- The smallest acceptable interrupt, where nothing holds interrupts off. -/
theorem accepted_iff (s : State) (n : Nat) :
    s.accepted = some n ↔ s.heldOff = false ∧ s.acceptable n = true ∧ ∀ k < n, ¬ s.acceptable k = true := by
  rw [← find_acceptable_iff, State.accepted]
  cases s.heldOff <;> simp

/-- In the operating mode an accepted interrupt is entered. -/
theorem step_eq_enterInterrupt {p : State} {n : Nat} (hr : p.sample.pins.resetAsserted = false)
    (hq : p.sample.resetReq = false) (hs : p.sample.standby = .run) (hp : p.sample.phiRuns = true)
    (ha : p.sample.accepted = some n) :
    step p = andThen (enterInterrupt n p.sample) fun t => .next (settle p.sample t).bump := by
  have entered : modeStep p.sample = andThen (enterInterrupt n p.sample) fun t => .next (settle p.sample t) := by
    simp only [modeStep, hr, hq, hs, hp, runStep, ha, Bool.false_and, Bool.or_self, Bool.false_eq_true, if_false, if_true]
  rw [step, entered, andThen_assoc]
  rfl

/-- Settles O44: `accepted_iff` with each condition written out; the step enters what is accepted. -/
theorem interruptAcceptance : Obligations.interrupt_acceptance := by
  unfold Obligations.interrupt_acceptance
  intro s n may
  refine ⟨?accepted, fun p hp hr hq hs hphi ha => ?step⟩
  case accepted =>
    have may_iff (k : Nat) : s.acceptable k = true ↔ s.ints.ime = true ∧ may k := acceptable_iff s k
    rw [accepted_iff, heldOff_eq_false]
    simp only [may_iff]
    constructor
    · rintro ⟨⟨hh, hrel⟩, ⟨hime, hn⟩, hk⟩
      exact ⟨hh, hrel, hime, hn, fun k hlt hmay => hk k hlt ⟨hime, hmay⟩⟩
    · rintro ⟨hh, hrel, hime, hn, hk⟩
      exact ⟨⟨hh, hrel⟩, ⟨hime, hn⟩, fun k hlt hmay => hk k hlt hmay.2⟩
  case step =>
    subst hp
    exact step_eq_enterInterrupt hr hq hs hphi ha

/-! ### Edges (R425 to R429) -/

theorem rose_self (a : Bool) : rose a a = false := by
  cases a <;> rfl

theorem fell_self (a : Bool) : fell a a = false := by
  cases a <;> rfl

/-- A level that stays gives no edge, whatever IM01 and IM00 select. -/
theorem int0Edge_self (sel : BitVec 2) (a : Bool) : int0Edge sel a a = false := by
  unfold int0Edge
  split
  · exact rose_self a
  · exact fell_self a
  · exact bne_self_eq_false a
  · rfl

theorem int1Edge_self (im1 a : Bool) : int1Edge im1 a a = false := by
  unfold int1Edge
  split
  · exact fell_self a
  · exact rose_self a

theorem int2Edge_self (k : KeySel) (a : Bool) (kr : Nibble) : int2Edge k a a kr kr = false := by
  unfold int2Edge
  split
  · exact rose_self a
  · exact fell_self _

/-- The edges have been taken in: the same levels once more set nothing. -/
theorem detectEdges_idem (s : State) : s.detectEdges.detectEdges = s.detectEdges := by
  have levels : s.detectEdges.pinLevels 6 = s.pinLevels 6 := rfl
  rw [State.detectEdges.eq_1 s.detectEdges, levels]
  simp only [State.detectEdges, int0Edge_self, int1Edge_self, int2Edge_self, bne_self_eq_false, Bool.and_false,
    Bool.or_false]

/-- The noise eliminator's samples in an advance (R426): none while Φ is not supplied. -/
theorem nfSamples_eq (s : State) (e : Elapsed) :
    s.nfSamples e = if s.standby = .run ∧ s.phiRuns = true then
      (if s.ints.im0.getLsbD 3 then divTicks s.clk.div e.fx 6 else e.cycles) else 0 := by
  have supplied : s.phiSupplied = true ↔ s.standby = .run ∧ s.phiRuns = true := by
    simp [State.phiSupplied]
  unfold State.nfSamples State.phiCycles
  simp only [supplied]
  split <;> rfl

/-- The noise eliminator is selected while IM02 = 0. -/
theorem int0Filtered_eq (s : State) : s.int0Filtered = !s.ints.im0.getLsbD 2 := rfl

/-- INT0 without the noise eliminator is detected on the pin. -/
theorem detectEdges_int0 (s : State) : s.detectEdges.ints.irq.int0 = (s.ints.irq.int0 ||
    (s.ints.im0.getLsbD 2 && int0Edge (s.ints.im0.extractLsb' 0 2) s.edges.int0 (s.pins.p1.getLsbD 0))) := by
  rw [← Bool.not_not (s.ints.im0.getLsbD 2)]
  rfl

/-- The noise eliminator is not selected: its output follows the pin. -/
theorem advanceNoise_unfiltered {s : State} (h : s.int0Filtered = false) (e : Elapsed) :
    s.advanceNoise e = { s with edges := { s.edges with nfOut := s.pins.p1.getLsbD 0, nfCount := 0 } } := by
  simp only [State.advanceNoise, h, Bool.false_eq_true, if_false]

/-- The noise eliminator is selected: it takes its samples of the pin. -/
theorem advanceNoise_edges {s : State} (h : s.int0Filtered = true) (e : Elapsed) :
    (s.advanceNoise e).edges = s.edges.sample (s.pins.p1.getLsbD 0) (s.nfSamples e) := by
  simp only [State.advanceNoise, h, if_true]

/-- The noise eliminator is selected: INT0 is detected on its output. -/
theorem advanceNoise_int0 {s : State} (h : s.int0Filtered = true) (e : Elapsed) :
    (s.advanceNoise e).ints.irq.int0 = (s.ints.irq.int0 ||
      int0Edge (s.ints.im0.extractLsb' 0 2) s.edges.nfOut (s.advanceNoise e).edges.nfOut) := by
  simp only [State.advanceNoise, h, if_true]

/-- Without a sample the noise eliminator stands still. -/
theorem advanceNoise_idle {s : State} (h : s.int0Filtered = true) {e : Elapsed} (h0 : s.nfSamples e = 0) :
    s.advanceNoise e = s := by
  simp only [State.advanceNoise, h, h0, Edges.sample, if_true, int0Edge_self, Bool.or_false]

/-- Samples at the output's level leave it. -/
theorem sample_same {g : Edges} {now : Bool} (n : Nat) (h : now = g.nfOut) : (g.sample now n).nfOut = g.nfOut := by
  unfold Edges.sample
  simp only [h, if_true]
  split <;> rfl

/-- Fewer than two samples at a new level are only counted. -/
theorem sample_few {g : Edges} {now : Bool} {n : Nat} (h : now ≠ g.nfOut) (hn : n ≠ 0) (h2 : g.nfCount + n < 2) :
    g.sample now n = { g with nfCount := g.nfCount + n } := by
  rw [Edges.sample, if_neg hn, if_neg h, if_neg (by omega)]

/-- After two samples at a new level the output follows. -/
theorem sample_follows {g : Edges} {now : Bool} {n : Nat} (h : now ≠ g.nfOut) (hn : n ≠ 0) (h2 : 2 ≤ g.nfCount + n) :
    g.sample now n = { g with nfOut := now, nfCount := 0 } := by
  rw [Edges.sample, if_neg hn, if_neg h, if_pos h2]

/-- Settles O47: the detectors as they are defined; the noise eliminator by its samples (`sample_same`, `sample_few`,
`sample_follows`); `detectEdges_idem` for the same levels once more. -/
theorem edgesSetRequests : Obligations.edges_set_requests := by
  unfold Obligations.edges_set_requests
  intro s e t r g now edge n
  refine ⟨rfl, rfl, ?int2, fun h => ?unfiltered, fun h => ?filtered, rfl, rfl, rfl, rfl, rfl, detectEdges_idem s⟩
  case int2 =>
    show (s.ints.irq.int2 || int2Edge (keySel s.ints.im2) g.int2 (s.pins.p1.getLsbD 2) g.kr (s.pinLevels 6)) = _
    unfold keySel
    cases if s.ints.im2 = 0 then KeySel.int2Rising else Config.im2Codes s.ints.im2 <;> rfl
  case unfiltered =>
    have direct : s.int0Filtered = false := by rw [int0Filtered_eq, h, Bool.not_true]
    have hint0 := detectEdges_int0 s
    have hr : r = _ := advanceNoise_unfiltered direct e
    rw [h, Bool.true_and] at hint0
    exact ⟨hint0, by rw [hr], by rw [hr]⟩
  case filtered =>
    have selected : s.int0Filtered = true := by rw [int0Filtered_eq, h, Bool.not_false]
    have hint0 := detectEdges_int0 s
    rw [h, Bool.false_and, Bool.or_false] at hint0
    have samples : s.nfSamples e = n := nfSamples_eq s e
    have taken : r.edges = g.sample now n := samples ▸ advanceNoise_edges selected e
    have detected : r.ints.irq.int0 = (s.ints.irq.int0 || edge g.nfOut r.edges.nfOut) := advanceNoise_int0 selected e
    have quiet (hout : r.edges.nfOut = g.nfOut) : r.ints.irq.int0 = s.ints.irq.int0 := by
      have noEdge : edge g.nfOut g.nfOut = false := int0Edge_self _ g.nfOut
      rw [detected, hout, noEdge, Bool.or_false]
    refine ⟨hint0, fun h0 => advanceNoise_idle selected (samples.trans h0), fun hsame => ?same,
      fun hne h0 h2 => ?few, fun hne h0 h2 => ?follows⟩
    case same =>
      have out : r.edges.nfOut = g.nfOut := by rw [taken, sample_same n hsame]
      exact ⟨quiet out, out.trans hsame.symm⟩
    case few =>
      rw [sample_few hne h0 h2] at taken
      exact ⟨quiet (by rw [taken]), by rw [taken], by rw [taken]⟩
    case follows =>
      rw [sample_follows hne h0 h2] at taken
      have out : r.edges.nfOut = now := by rw [taken]
      exact ⟨out ▸ detected, out⟩

end Sys2Proof.Machine
end

section
/-! The standby modes and their release (60_exceptions.md R450 to R460, R590): what a quantum of time does to the request
flags, the CPU mode and the reset signal, and the steps in a standby mode. The statement `standby_release`. -/

namespace Sys2Proof.Machine

/-! ### Request flags only rise -/

/-- Every flag that is set in `p` is set in `q`. -/
structure Flags.Le (p q : Flags) : Prop where
  bt : p.bt = true → q.bt = true := by exact id
  int4 : p.int4 = true → q.int4 = true := by exact id
  int0 : p.int0 = true → q.int0 = true := by exact id
  int1 : p.int1 = true → q.int1 = true := by exact id
  csi : p.csi = true → q.csi = true := by exact id
  t0 : p.t0 = true → q.t0 = true := by exact id
  t1 : p.t1 = true → q.t1 = true := by exact id
  w : p.w = true → q.w = true := by exact id
  int2 : p.int2 = true → q.int2 = true := by exact id

theorem Flags.Le.refl (p : Flags) : p.Le p := {}

theorem Flags.Le.trans {p q r : Flags} (h : p.Le q) (k : q.Le r) : p.Le r :=
  ⟨k.bt ∘ h.bt, k.int4 ∘ h.int4, k.int0 ∘ h.int0, k.int1 ∘ h.int1, k.csi ∘ h.csi, k.t0 ∘ h.t0, k.t1 ∘ h.t1, k.w ∘ h.w,
    k.int2 ∘ h.int2⟩

/-- A request stays while the flags rise. -/
theorem vectoredRequest_mono {p q e : Flags} (h : p.Le q) {n : Nat} (hn : vectoredRequest p e n) :
    vectoredRequest q e n :=
  match n, hn with
  | 1, hn => hn.imp (And.imp_left h.bt) (And.imp_left h.int4)
  | 2, hn => hn.imp_left h.int0
  | 3, hn => hn.imp_left h.int1
  | 4, hn => hn.imp_left h.csi
  | 5, hn => hn.imp_left h.t0
  | 6, hn => hn.imp_left h.t1

/-- The release signal (R454): a vectored request or an enabled test flag. -/
def Released (z : State) : Prop :=
  (∃ n, vectoredRequest z.ints.irq z.ints.ie n) ∨ (z.ints.irq.w = true ∧ z.ints.ie.w = true) ∨
    (z.ints.irq.int2 = true ∧ z.ints.ie.int2 = true)

theorem release_iff (z : State) : z.release = true ↔ Released z := by
  have vectored : (∃ n, vectoredRequest z.ints.irq z.ints.ie n) ↔ ∃ n ∈ [1, 2, 3, 4, 5, 6], z.vrq z.ints.irq n = true :=
    ⟨fun ⟨n, h⟩ => ⟨n, vectoredRequest_mem h, (vrq_iff z _ n).mpr h⟩, fun ⟨n, _, h⟩ => ⟨n, (vrq_iff z _ n).mp h⟩⟩
  simp only [Released, vectored, State.release, Bool.or_eq_true, Bool.and_eq_true, List.mem_cons, List.not_mem_nil,
    or_false, exists_eq_or_imp, exists_eq_left, or_assoc]

/-! ### What time does to requests, mode and reset signal -/

/-- The devices have gone on by the time `e`, from `s` to `t`: enables are as before and requests have only risen; only the
wait after STOP ends by itself, and without a period of fX there is no reset signal. -/
structure Ticks (e : Elapsed) (s t : State) : Prop where
  ie : t.ints.ie = s.ints.ie
  irq : s.ints.irq.Le t.ints.irq
  standby : s.standby ≠ .wait → t.standby = s.standby
  resetReq : e.fx = 0 → t.resetReq = s.resetReq

theorem Ticks.trans {e : Elapsed} {s t u : State} (h : Ticks e s t) (k : Ticks e t u) : Ticks e s u where
  ie := k.ie.trans h.ie
  irq := h.irq.trans k.irq
  standby hw := (k.standby (h.standby hw ▸ hw)).trans (h.standby hw)
  resetReq h0 := (k.resetReq h0).trans (h.resetReq h0)

/-- A change of other fields. -/
theorem Ticks.same {e : Elapsed} {s t : State} (hi : t.ints = s.ints) (hs : t.standby = s.standby)
    (hr : t.resetReq = s.resetReq) : Ticks e s t :=
  ⟨by rw [hi], by rw [hi]; exact .refl _, fun _ => hs, fun _ => hr⟩

/-- A device that may set request flags. -/
theorem Ticks.raise {e : Elapsed} {s t : State} (he : t.ints.ie = s.ints.ie) (hq : s.ints.irq.Le t.ints.irq)
    (hs : t.standby = s.standby) (hr : t.resetReq = s.resetReq) : Ticks e s t :=
  ⟨he, hq, fun _ => hs, fun _ => hr⟩

theorem detectEdges_ticks (e : Elapsed) (s : State) : Ticks e s s.detectEdges :=
  .raise rfl { int4 := Bool.or_inl, int0 := Bool.or_inl, int1 := Bool.or_inl, int2 := Bool.or_inl } rfl rfl

theorem countTimers_ticks (e : Elapsed) (s : State) (n : Nat) (f : Nat → Nat) : Ticks e s (s.countTimers n f).1 := by
  unfold State.countTimers
  dsimp only
  split <;> exact .raise rfl { t0 := Bool.or_inl, t1 := Bool.or_inl } rfl rfl

theorem advanceSerial_ticks (e d : Elapsed) (s : State) (pe : PinEdges) (b : Bool) (n : Nat) :
    Ticks e s (s.advanceSerial d pe b n) :=
  .raise rfl { csi := Bool.or_inl } rfl rfl

theorem advanceWatch_ticks (e d : Elapsed) (s : State) : Ticks e s (s.advanceWatch d) :=
  .raise rfl { w := Bool.or_inl } rfl rfl

theorem advanceNoise_ticks (e d : Elapsed) (s : State) : Ticks e s (s.advanceNoise d) := by
  unfold State.advanceNoise
  dsimp only
  split
  · exact .raise rfl { int0 := Bool.or_inl } rfl rfl
  · exact .same rfl rfl rfl

theorem modeGlitches_ticks (e d : Elapsed) (s : State) : Ticks e s (s.modeGlitches d) :=
  .raise rfl { int0 := Bool.or_inl, int1 := Bool.or_inl, int2 := Bool.or_inl } rfl rfl

theorem advanceConversion_ticks (e : Elapsed) (s : State) (n : Nat) : Ticks e s (s.advanceConversion n) := by
  unfold State.advanceConversion
  split
  · exact .same rfl rfl rfl
  · split <;> exact .same rfl rfl rfl

theorem advanceAdc_ticks (e d : Elapsed) (s : State) : Ticks e s (s.advanceAdc d) := by
  unfold State.advanceAdc
  split
  · split
    · exact advanceConversion_ticks e s _
    · split
      · exact Ticks.trans (t := s.beginConversion) (.same rfl rfl rfl) (advanceConversion_ticks e _ _)
      · exact .same rfl rfl rfl
  · split <;> exact .same rfl rfl rfl

theorem advanceDividers_ticks (e d : Elapsed) (s : State) (c : Nat) : Ticks e s (s.advanceDividers c d) := by
  unfold State.advanceDividers State.keepRemainders
  split
  · split <;> exact .same rfl rfl rfl
  · split <;> exact .same rfl rfl rfl

theorem tickSwitch_ticks (e : Elapsed) (s : State) (c : Nat) : Ticks e s (s.tickSwitch c) := by
  unfold State.tickSwitch
  split
  · exact .same rfl rfl rfl
  · split
    · split <;> exact .same rfl rfl rfl
    · exact .same rfl rfl rfl

theorem tickPcl_ticks (e d : Elapsed) (s : State) : Ticks e s (s.tickPcl d) := .same rfl rfl rfl

/-- BT counts on (R532, R534, R535): an overflow needs a period of fX, sets IRQBT at most, and ends no mode but the wait. -/
theorem advanceBt_ticks (e : Elapsed) (s : State) : Ticks e s (s.advanceBt e) := by
  unfold State.advanceBt
  dsimp only
  split
  · exact .same rfl rfl rfl
  · next overflow =>
    have runs : e.fx ≠ 0 := by
      intro h0
      have none : divTicks s.clk.div e.fx s.bt.tap = 0 := by simp [divTicks, h0]
      have := s.bt.count.isLt
      omega
    have noReset {P : Prop} (h0 : e.fx = 0) : P := absurd h0 runs
    split
    · next wait =>
      have ended {P : Prop} (h : s.standby ≠ .wait) : P := absurd wait h
      cases s.bt.wdtm
      · exact ⟨rfl, { bt := fun _ => rfl }, ended, noReset⟩
      · exact ⟨rfl, {}, ended, noReset⟩
    · cases s.bt.wdtm
      · exact ⟨rfl, { bt := fun _ => rfl }, fun _ => rfl, noReset⟩
      · exact ⟨rfl, {}, fun _ => rfl, noReset⟩

/-- All devices together. -/
theorem advanceFor_ticks (s : State) (c : Nat) (e : Elapsed) (pe : PinEdges) : Ticks e s (s.advanceFor c e pe) := by
  have shifted := (countTimers_ticks e s _ _).trans
    (advanceSerial_ticks e e (s.advanceTimers e pe).1 pe s.timer0.tout (s.advanceTimers e pe).2)
  have counted := ((shifted.trans (advanceWatch_ticks e e _)).trans (advanceAdc_ticks e e _)).trans
    (advanceNoise_ticks e e _)
  unfold State.advanceFor
  dsimp only
  refine ((Ticks.trans ?bt (modeGlitches_ticks e e _)).trans (tickPcl_ticks e e _)).trans (advanceDividers_ticks e e _ c)
  split
  · exact counted
  · exact counted
  · exact counted.trans (advanceBt_ticks e _)

/-- A quantum of time. -/
theorem quantum_ticks (s : State) (c : Nat) : Ticks (s.detectEdges.elapsed c) s (s.quantum c) :=
  ((detectEdges_ticks _ s).trans (advanceFor_ticks _ c _ _)).trans (tickSwitch_ticks _ _ _)

/-- In STOP mode no period of fX passes (R453, R518). -/
theorem elapsed_stop {s : State} (h : s.standby = .stop) (c : Nat) : (s.elapsed c).fx = 0 := by
  have stopped : s.fxRunning = false := by simp [State.fxRunning, h]
  simp only [State.elapsed, State.onFx, stopped, Bool.false_and, Bool.false_eq_true, if_false]
  split <;> rfl

theorem quantum_released {s : State} (c : Nat) (h : Released s) : Released (s.quantum c) := by
  have t := quantum_ticks s c
  unfold Released at h ⊢
  rw [t.ie]
  exact h.imp (Exists.imp fun _ => vectoredRequest_mono t.irq) (Or.imp (And.imp_left t.irq.w) (And.imp_left t.irq.int2))

/-! ### Steps without an instruction -/

theorem releaseStandby_halt {z : State} (h : z.standby = .halt) : z.releaseStandby =
    { z with standby := .run, clk := { z.clk with pcc := z.clk.pcc &&& 0x3 }, ints := { z.ints with releaseHold := 2 } } := by
  simp only [State.releaseStandby, h]

theorem releaseStandby_stop {z : State} (h : z.standby = .stop) :
    z.releaseStandby = { z with standby := .wait, bt := { z.bt with count := 0 } } := by
  simp only [State.releaseStandby, h]

theorem sample_fields (s : State) : s.sample.pc = s.pc ∧ s.sample.ram = s.ram ∧ s.sample.cycles = s.cycles ∧
    s.sample.sp = s.sp := by
  unfold State.sample
  split <;> exact ⟨rfl, rfl, rfl, rfl⟩

section
variable {s : State} (hr : s.sample.pins.resetAsserted = false) (hq : s.sample.resetReq = false)
include hr hq

/-- Without a reset, HALT and STOP mode take a standby step. -/
theorem step_standby (hm : s.sample.standby = .halt ∨ s.sample.standby = .stop) :
    step s = .next s.sample.standbyStep.bump := by
  obtain hm | hm := hm <;> simp [step, modeStep, hr, hq, hm]

/-- In the wait after STOP, and in the operating mode without Φ, only time passes. -/
theorem step_quantum (hm : s.sample.standby = .wait ∨ s.sample.standby = .run ∧ s.sample.phiRuns = false) :
    step s = .next (s.sample.quantum 1).bump := by
  obtain hm | ⟨hm, hphi⟩ := hm
  · simp [step, modeStep, hr, hq, hm]
  · simp [step, modeStep, hr, hq, hm, hphi]

end

/-- The standby step, where `c` is the length of its quantum. -/
theorem standbyStep_eq {s : State} {c : Nat} (h1 : Released s → c = 0) (h0 : ¬ Released s → c = 1) :
    s.standbyStep =
      if (s.quantum c).release && !(s.quantum c).resetReq then (s.quantum c).releaseStandby else s.quantum c := by
  have length : (if s.release then 0 else 1) = c := by
    by_cases h : s.release = true
    · rw [if_pos h, h1 ((release_iff s).mp h)]
    · rw [if_neg h, h0 fun k => h ((release_iff s).mpr k)]
  rw [State.standbyStep, length]

/-- Settles O50: the standby step by whether its quantum leaves a release and no reset signal. -/
theorem standbyRelease : Obligations.standby_release := by
  unfold Obligations.standby_release
  intro s c q released z hr hq h1 h0
  have ticks := quantum_ticks q c
  have whole : q.standbyStep = if z.release && !z.resetReq then z.releaseStandby else z := standbyStep_eq h1 h0
  have leaves (hz : released z) (hreset : z.resetReq = false) : q.standbyStep = z.releaseStandby := by
    rw [whole, if_pos (by rw [(release_iff z).mpr hz, hreset]; rfl)]
  refine ⟨quantum_released c, fun hm hz hreset => ?halt, fun hm hz => ?stop, fun hm hz => ?held, fun hm => ?frame⟩
  case halt =>
    have mode : z.standby = .halt := (ticks.standby (by simp [hm])).trans hm
    rw [step_standby hr hq (.inl hm), leaves hz hreset, releaseStandby_halt mode]
    rfl
  case stop =>
    have mode : z.standby = .stop := (ticks.standby (by simp [hm])).trans hm
    have noReset : z.resetReq = false := (ticks.resetReq (elapsed_stop hm c)).trans hq
    rw [step_standby hr hq (.inr hm), leaves hz noReset, releaseStandby_stop mode]
    rfl
  case held =>
    have notWait : q.standby ≠ .wait := by
      obtain hm | hm := hm <;> simp [hm]
    have stays : (z.release && !z.resetReq) = false := by
      obtain hz | hz := hz
      · rw [Bool.eq_false_iff.mpr fun h => hz ((release_iff z).mp h), Bool.false_and]
      · rw [hz, Bool.not_true, Bool.and_false]
    rw [step_standby hr hq hm, whole, stays]
    exact ⟨rfl, ticks.standby notWait⟩
  case frame =>
    have frame {t : State} (h : SameCpu q t) :
        t.bump.pc = s.pc ∧ t.bump.ram = s.ram ∧ t.bump.cycles = s.cycles ∧ t.bump.sp = s.sp := by
      obtain ⟨-, -, hram, hpc, -, hsp, -, -, -, -, hcycles, -⟩ := h.fields
      obtain ⟨spc, sram, scycles, ssp⟩ := sample_fields s
      exact ⟨hpc.trans spc, hram.trans sram, hcycles.trans scycles, hsp.trans ssp⟩
    obtain hm | hm | hm := hm
    · exact ⟨_, step_standby hr hq (.inl hm), frame (standbyStep_sameCpu q)⟩
    · exact ⟨_, step_standby hr hq (.inr hm), frame (standbyStep_sameCpu q)⟩
    · exact ⟨_, step_quantum hr hq hm, frame (quantum_sameCpu q 1)⟩

end Sys2Proof.Machine
end

section
/-! The reset operation, /RESET held low, the wait and the reset vector (70_reset_and_hazards.md R600 to R606). The
statements `reset_state_values` and `reset_operation_and_vector`. -/

namespace Sys2Proof.Machine

/-! ### The values of reset (R601, R602, R606) -/

/-- The reset vector of `State.reset`: two unlisted bytes, 60H (log 3). -/
theorem reset_vector : State.reset.romByte 0 = some romDefault ∧ State.reset.romByte 1 = some romDefault ∧
    State.reset.mbe = romDefault.getLsbD 7 ∧ State.reset.rbe = romDefault.getLsbD 6 ∧
      State.reset.pc = State.reset.truncPc (romDefault.extractLsb' 0 6 ++ romDefault : BitVec 14).toNat := by decide

/-- Settles O48: the vector, and the fields before and after it one by one. -/
theorem resetStateValues : Obligations.reset_state_values := by
  unfold Obligations.reset_state_values
  intro s
  exact ⟨rfl, rfl, rfl, rfl, rfl, rfl, ⟨romDefault, romDefault, reset_vector⟩, by decide⟩

/-! ### The host's sample, and a quantum of the wait -/

theorem sample_sameCode (s : State) : SameCode s s.sample := by
  unfold State.sample
  split <;> exact ⟨rfl, rfl, rfl⟩

/-- The elements that a reset in a standby mode retains are none that the host brings. -/
theorem sample_retained (s : State) : s.sample.ram = s.ram ∧ s.sample.cy = s.cy ∧ s.sample.serial.sio = s.serial.sio ∧
    s.sample.bsb0 = s.bsb0 ∧ s.sample.bsb1 = s.bsb1 ∧ s.sample.bsb2 = s.bsb2 ∧ s.sample.bsb3 = s.bsb3 := by
  unfold State.sample
  split <;> exact ⟨rfl, rfl, rfl, rfl, rfl, rfl, rfl⟩

theorem SameCpu.sameCode {s t : State} (h : SameCpu s t) : SameCode s t := by
  obtain ⟨hchip, hrom, -, hpc, -⟩ := h.fields
  exact ⟨hchip, hrom, hpc⟩

theorem SameCode.romByte {s t : State} (h : SameCode s t) (a : Nat) : t.romByte a = s.romByte a :=
  romByte_congr h.chip h.rom a

theorem SameCode.truncPc {s t : State} (h : SameCode s t) (a : Nat) : t.truncPc a = s.truncPc a := by
  rw [State.truncPc, State.truncPc, h.chip]

/-! ### The steps of a reset -/

/-- A reset signal: /RESET falls, or the watchdog asks for it (R600). -/
theorem modeStep_reset {q : State} (h : q.pins.resetAsserted = true ∧ q.standby ≠ .resetHeld ∨
    q.pins.resetAsserted = false ∧ q.resetReq = true) : modeStep q = .next q.resetOperation := by
  obtain ⟨hr, hm⟩ | ⟨hr, hq⟩ := h
  · simp [modeStep, hr, hm]
  · simp [modeStep, hr, hq]

/-- /RESET stays low after the reset operation (log 38). -/
theorem modeStep_held {q : State} (hr : q.pins.resetAsserted = true) (hm : q.standby = .resetHeld) :
    modeStep q = .next q.holdReset := by
  simp [modeStep, hr, hm]

/-- The wait of R603, from the rise of /RESET on. -/
theorem modeStep_wait {q : State} {left : Nat} (hr : q.pins.resetAsserted = false) (hq : q.resetReq = false)
    (hm : q.standby = .resetWait left ∨ q.standby = .resetHeld ∧ left = q.chip.resetWait) :
    modeStep q = q.resetWaitStep left := by
  obtain hm | ⟨hm, rfl⟩ := hm
  · simp [modeStep, hr, hq, hm]
  · simp [modeStep, hr, hq, hm]

theorem resetWaitStep_waits {q : State} {left : Nat} (h : (q.elapsed 1).fx < left) :
    q.resetWaitStep left = .next { q.quantum 1 with standby := .resetWait (left - (q.elapsed 1).fx) } :=
  if_neg (Nat.not_le.mpr h)

theorem resetWaitStep_ends {q : State} {left : Nat} (h : left ≤ (q.elapsed 1).fx) :
    q.resetWaitStep left = { q.quantum 1 with standby := .run }.loadVector 0 :=
  if_pos h

/-- What the reset operation keeps in a standby mode (R601). -/
theorem resetOperation_keeps {q : State} (h : q.standby.isStandby = true) : q.resetOperation.ram = q.ram ∧
    q.resetOperation.cy = q.cy ∧ q.resetOperation.serial.sio = q.serial.sio ∧ q.resetOperation.bsb0 = q.bsb0 ∧
      q.resetOperation.bsb1 = q.bsb1 ∧ q.resetOperation.bsb2 = q.bsb2 ∧ q.resetOperation.bsb3 = q.bsb3 :=
  ⟨if_pos h, if_pos h, if_pos h, if_pos h, if_pos h, if_pos h, if_pos h⟩

theorem step_eq_bump {s t : State} (h : modeStep s.sample = .next t) : step s = .next t.bump := by
  rw [step, h, andThen_next]

/-- Settles O49: the reset operation by its definition and `resetOperation_keeps`; the wait by the fX periods of its
quantum, which changes no memory. -/
theorem resetOperationAndVector : Obligations.reset_operation_and_vector := by
  unfold Obligations.reset_operation_and_vector
  intro s b0 b1 left q
  have code : SameCode s q := sample_sameCode s
  refine ⟨fun signal => ?reset, fun hr hm => ?held, fun hr hq hm => ⟨fun early => ?waits, fun late h0 h1 => ?ends⟩⟩
  case reset =>
    refine ⟨_, step_eq_bump (modeStep_reset signal), rfl, rfl, rfl, rfl, rfl, rfl, rfl, rfl, rfl, rfl, rfl, rfl, rfl, rfl,
      rfl, rfl, rfl, rfl, rfl, rfl, rfl, rfl, code.rom, code.chip, rfl, ?_, fun hm => ?_⟩
    · rw [← code.chip]
      rfl
    · have standby : q.standby.isStandby = true := by
        obtain hm | hm := hm <;> rw [hm] <;> rfl
      obtain ⟨kram, kcy, ksio, k0, k1, k2, k3⟩ := resetOperation_keeps standby
      obtain ⟨sram, scy, ssio, s0, s1, s2, s3⟩ := sample_retained s
      exact ⟨kram.trans sram, kcy.trans scy, ksio.trans ssio, k0.trans s0, k1.trans s1, k2.trans s2, k3.trans s3⟩
  case held => exact step_eq_bump (modeStep_held hr hm)
  all_goals
    have same : SameCpu q (q.quantum 1) := quantum_sameCpu q 1
    have waiting := modeStep_wait hr hq (code.chip.symm ▸ hm)
  case waits =>
    rw [resetWaitStep_waits early] at waiting
    obtain ⟨-, -, hram, hpc, -, hsp, -, -, -, -, hcycles, -⟩ := same.fields
    obtain ⟨spc, sram, scycles, ssp⟩ := sample_fields s
    exact ⟨_, step_eq_bump waiting, rfl, hpc.trans spc, hram.trans sram, hcycles.trans scycles, hsp.trans ssp⟩
  case ends =>
    have ended : SameCode s { q.quantum 1 with standby := .run } :=
      code.trans (same.trans (standby_sameCpu _ .run)).sameCode
    rw [resetWaitStep_ends late, State.loadVector_next _ _ b0 b1 ((ended.romByte 0).trans h0)
      ((ended.romByte 1).trans h1)] at waiting
    exact ⟨_, step_eq_bump waiting, rfl, rfl, rfl, ended.truncPc _⟩

end Sys2Proof.Machine
end

section
/-! The basic interval timer with the watchdog, and the watch timer (65_peripherals.md R530 to R535, R542). The statement
`interval_and_watch_timers`. -/

namespace Sys2Proof.Machine

/-! ### The basic interval timer (R531, R532, R534, R535) -/

/-- BT after an advance, before it is taken modulo 256: from 256 on it has overflowed. -/
def State.btTotal (s : State) (e : Elapsed) : Nat := s.bt.count.toNat + divTicks s.clk.div e.fx s.bt.tap

theorem advanceBt_count (s : State) (e : Elapsed) : (s.advanceBt e).bt.count = BitVec.ofNat 8 (s.btTotal e) := by
  unfold State.advanceBt State.raiseBt
  dsimp only
  split
  · rfl
  · cases s.bt.wdtm <;> split <;> rfl

/-- Without an overflow BT only counts. -/
theorem advanceBt_below {s : State} {e : Elapsed} (h : s.btTotal e < 256) :
    s.advanceBt e = { s with bt := { s.bt with count := BitVec.ofNat 8 (s.btTotal e) } } :=
  if_pos h

/-- BT behind an overflow, IRQBT set while WDTM = 0. -/
def State.btWrapped (s : State) (e : Elapsed) : State :=
  let counted := { s with bt := { s.bt with count := BitVec.ofNat 8 (s.btTotal e) } }
  if s.bt.wdtm then counted else counted.raiseBt

/-- What an overflow does beside: it ends the wait after STOP, or with WDTM = 1 asks for a reset. -/
theorem advanceBt_overflow {s : State} {e : Elapsed} (h : 256 ≤ s.btTotal e) : s.advanceBt e =
    if s.standby = .wait then
      { s.btWrapped e with standby := .run, clk := { (s.btWrapped e).clk with pcc := (s.btWrapped e).clk.pcc &&& 0x3 },
                           ints := { (s.btWrapped e).ints with releaseHold := 2 } }
    else if s.bt.wdtm then { s.btWrapped e with resetReq := true } else s.btWrapped e :=
  if_neg (Nat.not_lt.mpr h)

theorem btWrapped_irq (s : State) (e : Elapsed) : (s.btWrapped e).ints.irq.bt = (s.ints.irq.bt || !s.bt.wdtm) := by
  unfold State.btWrapped
  cases s.bt.wdtm
  · exact (Bool.or_true _).symm
  · exact (Bool.or_false _).symm

theorem btWrapped_frame (s : State) (e : Elapsed) : (s.btWrapped e).standby = s.standby ∧
    (s.btWrapped e).resetReq = s.resetReq ∧ (s.btWrapped e).clk = s.clk := by
  unfold State.btWrapped
  cases s.bt.wdtm <;> exact ⟨rfl, rfl, rfl⟩

theorem advanceBt_irq {s : State} {e : Elapsed} (h : 256 ≤ s.btTotal e) :
    (s.advanceBt e).ints.irq.bt = (s.ints.irq.bt || !s.bt.wdtm) := by
  rw [advanceBt_overflow h, ← btWrapped_irq s e]
  split
  · rfl
  · split <;> rfl

/-- The overflow that ends the wait after STOP (R455, R535). -/
theorem advanceBt_wait {s : State} {e : Elapsed} (h : 256 ≤ s.btTotal e) (hw : s.standby = .wait) :
    (s.advanceBt e).standby = .run ∧ (s.advanceBt e).resetReq = s.resetReq ∧
      (s.advanceBt e).clk.pcc = s.clk.pcc &&& 0x3 ∧ (s.advanceBt e).ints.releaseHold = 2 := by
  obtain ⟨-, hreset, hclk⟩ := btWrapped_frame s e
  rw [advanceBt_overflow h, if_pos hw, ← hreset, ← hclk]
  exact ⟨rfl, rfl, rfl, rfl⟩

/-- Every other overflow (R534). -/
theorem advanceBt_run {s : State} {e : Elapsed} (h : 256 ≤ s.btTotal e) (hw : s.standby ≠ .wait) :
    (s.advanceBt e).standby = s.standby ∧ (s.advanceBt e).resetReq = (s.resetReq || s.bt.wdtm) := by
  obtain ⟨hstandby, hreset, -⟩ := btWrapped_frame s e
  rw [advanceBt_overflow h, if_neg hw, ← hstandby, ← hreset]
  cases s.bt.wdtm
  · exact ⟨rfl, (Bool.or_false _).symm⟩
  · exact ⟨rfl, (Bool.or_true _).symm⟩

/-- A 4-bit write of BTM that goes through (R531). -/
theorem writeBtm_eq {s u : State} {v : Nibble} (h : s.writeBtm v = .next u) :
    u.bt = { s.bt with btm := v.extractLsb' 0 3, count := if v.getLsbD 3 then 0 else s.bt.count } ∧
      u.ints = { s.ints with irq := { s.ints.irq with bt := !v.getLsbD 3 && s.ints.irq.bt } } := by
  unfold State.writeBtm State.restartBt at h
  dsimp only at h
  split at h
  · cases h
    cases v.getLsbD 3 <;> exact ⟨rfl, rfl⟩
  · cases h

/-! ### The watch timer (R542) -/

theorem advanceWatch_held {s : State} (h : s.watch.wm.getLsbD 2 = false) (e : Elapsed) :
    (s.advanceWatch e).watch.div = 0 ∧ (s.advanceWatch e).ints = s.ints := by
  simp only [State.advanceWatch, State.watchTicks, h, Bool.false_eq_true, if_false, ne_eq, not_true_eq_false,
    decide_false, Bool.or_false, and_self]

theorem advanceWatch_counts {s : State} (h : s.watch.wm.getLsbD 2 = true) (e : Elapsed) :
    (s.advanceWatch e).watch.div = BitVec.ofNat 14 (s.watch.div.toNat + s.fwPeriods e) := by
  simp [State.advanceWatch, h]

/-- The periods that the tap fW/k completes in an advance are none unless the divider passes a multiple of k. -/
theorem quotient_sub_ne_zero (a b : Nat) : decide (b - a ≠ 0) = decide (a < b) := by
  rw [decide_eq_decide]
  omega

theorem advanceWatch_irq {s : State} (h : s.watch.wm.getLsbD 2 = true) (e : Elapsed) :
    (s.advanceWatch e).ints.irq.w = (s.ints.irq.w ||
      decide (s.watch.div.toNat / (if s.watch.wm.getLsbD 1 then 2 ^ 7 else 2 ^ 14) <
        (s.watch.div.toNat + s.fwPeriods e) / (if s.watch.wm.getLsbD 1 then 2 ^ 7 else 2 ^ 14))) := by
  rw [← apply_ite (2 ^ ·), ← quotient_sub_ne_zero]
  simp only [State.advanceWatch, State.watchTicks, h, if_true]

/-- Settles O51: an advance by whether BT overflows and the wait after STOP is on, and by WM2; the writes as defined. -/
theorem intervalAndWatchTimers : Obligations.interval_and_watch_timers := by
  unfold Obligations.interval_and_watch_timers
  intro s e n t w p k
  refine ⟨?count, fun below => ?below, fun overflow => ⟨advanceBt_irq overflow, advanceBt_wait overflow,
    advanceBt_run overflow⟩, fun off => advanceWatch_held off e, fun on => ⟨?divider, advanceWatch_irq on e⟩,
    fun v u h => writeBtm_eq h, rfl, rfl⟩
  case count => exact (congrArg BitVec.toNat (advanceBt_count s e)).trans (BitVec.toNat_ofNat _ _)
  case below =>
    have counted : t = _ := advanceBt_below below
    rw [counted]
    exact ⟨rfl, rfl, rfl⟩
  case divider => exact (congrArg BitVec.toNat (advanceWatch_counts on e)).trans (BitVec.toNat_ofNat _ _)

end Sys2Proof.Machine
end

section
/-! The timer/event counters (65_peripherals.md R551 to R557; 66_serial_adc_bsb.md R569): count pulses in 8-bit and 16-bit
mode, and the timer starts. The statement `timers_match_every_period`. -/

namespace Sys2Proof.Machine

/-! ### Count pulses in 8-bit mode (R554, D16) -/

/-- No event yet. -/
def CountEvents.zero : CountEvents := ⟨0, 0, 0⟩

theorem pulse_match {t : TimerCounter} (h : t.count = t.modulo) (ev : CountEvents) :
    t.pulse ev = ({ t with count := 0, tout := !t.tout }, { ev with matches_ := ev.matches_ + 1 }) :=
  if_pos h

theorem pulse_count {t : TimerCounter} (h : t.count ≠ t.modulo) (ev : CountEvents) :
    t.pulse ev = ({ t with count := t.count + 1 },
      { ev with overflows := ev.overflows + if t.count = 0xFF then 1 else 0 }) := by
  rw [TimerCounter.pulse, if_neg h]
  split <;> rfl

/-- The last of `n + 1` pulses. -/
theorem pulses_succ (n : Nat) (t : TimerCounter) (ev : CountEvents) :
    t.pulses (n + 1) ev = (t.pulses n ev).1.pulse (t.pulses n ev).2 := by
  induction n generalizing t ev with
  | zero => rfl
  | succ n ih => exact ih (t.pulse ev).1 (t.pulse ev).2

theorem ofNat_add_one (m : Nat) : BitVec.ofNat 8 m + 1 = BitVec.ofNat 8 (m + 1) := (BitVec.ofNat_add m 1).symm

/-- Counting from FFH on is a carry. -/
theorem div_add_carry (m : Nat) : m / 256 + (if BitVec.ofNat 8 m = 0xFF then 1 else 0) = (m + 1) / 256 := by
  have full : BitVec.ofNat 8 m = 0xFF ↔ m % 256 = 255 :=
    BitVec.toNat_inj.symm.trans (by rw [BitVec.toNat_ofNat]; rfl)
  simp only [full]
  split <;> omega

/-- While no pulse finds the modulo value the pulses count, and each 256 of them are an overflow. -/
theorem pulses_count {n : Nat} {t : TimerCounter} (ev : CountEvents)
    (h : ∀ i < n, (t.count.toNat + i) % 256 ≠ t.modulo.toNat) :
    t.pulses n ev = ({ t with count := BitVec.ofNat 8 (t.count.toNat + n) },
      { ev with overflows := ev.overflows + (t.count.toNat + n) / 256 }) := by
  induction n with
  | zero =>
    have below : t.count.toNat / 256 = 0 := Nat.div_eq_of_lt t.count.isLt
    simp [TimerCounter.pulses, below]
  | succ n ih =>
    have differs : BitVec.ofNat 8 (t.count.toNat + n) ≠ t.modulo := fun e =>
      h n (Nat.lt_succ_self n) ((BitVec.toNat_ofNat _ _).symm.trans (congrArg BitVec.toNat e))
    rw [pulses_succ, ih fun i hi => h i (Nat.lt_succ_of_lt hi), pulse_count differs]
    dsimp only
    rw [ofNat_add_one, Nat.add_assoc, Nat.add_assoc, div_add_carry, Nat.add_assoc]

/-- From count 0, up to as many pulses as the modulo value only count. -/
theorem pulses_short {n : Nat} {t : TimerCounter} (h0 : t.count = 0) (h : n ≤ t.modulo.toNat) :
    t.pulses n .zero = ({ t with count := BitVec.ofNat 8 n }, .zero) := by
  have hm := t.modulo.isLt
  have start : t.count.toNat = 0 := congrArg BitVec.toNat h0
  rw [pulses_count _ fun i hi => by omega, start, Nat.zero_add, Nat.div_eq_of_lt (by omega)]
  rfl

/-- From count 0, one pulse more than the modulo value is a match. -/
theorem pulses_period {t : TimerCounter} (h0 : t.count = 0) :
    t.pulses (t.modulo.toNat + 1) .zero = ({ t with tout := !t.tout }, ⟨1, 0, 0⟩) := by
  rw [pulses_succ, pulses_short h0 (Nat.le_refl _), pulse_match (BitVec.ofNat_toNat _ _)]
  cases t
  cases h0
  rfl

/-- From a count above the modulo value past FFH: one overflow and no match. -/
theorem pulses_overflow {n : Nat} {t : TimerCounter} (h : t.modulo < t.count) (past : 256 ≤ t.count.toNat + n)
    (short : t.count.toNat + n ≤ 256 + t.modulo.toNat) :
    t.pulses n .zero = ({ t with count := BitVec.ofNat 8 (t.count.toNat + n) }, ⟨0, 1, 0⟩) := by
  have hm := t.modulo.isLt
  have above : t.modulo.toNat < t.count.toNat := h
  rw [pulses_count _ fun i hi => by omega, show (t.count.toNat + n) / 256 = 1 by omega]
  rfl

/-! ### Count pulses in 16-bit mode (R557) -/

/-- The last of `n + 1` pulses. -/
theorem pulses16_succ (n : Nat) (lo hi : TimerCounter) (ev : CountEvents) : pulses16 (n + 1) lo hi ev =
    pulse16 (pulses16 n lo hi ev).1 (pulses16 n lo hi ev).2.1 (pulses16 n lo hi ev).2.2 := by
  induction n generalizing lo hi ev with
  | zero => rfl
  | succ n ih => exact ih (pulse16 lo hi ev).1 (pulse16 lo hi ev).2.1 (pulse16 lo hi ev).2.2

/-- The combined counter after `n` pulses from 0 without a match. -/
def Counted16 (n : Nat) (lo hi : TimerCounter) (r : TimerCounter × TimerCounter × CountEvents) : Prop :=
  r.1 = { lo with count := BitVec.ofNat 8 n } ∧ r.2.1 = { hi with count := BitVec.ofNat 8 (n / 256) } ∧ r.2.2.matches_ = 0

theorem pulse16_match {lo hi : TimerCounter} (hlo : lo.count = lo.modulo) (hhi : hi.count = hi.modulo) (ev : CountEvents) :
    pulse16 lo hi ev = ({ lo with count := 0, tout := !lo.tout }, { hi with count := 0 },
      { ev with matches_ := ev.matches_ + 1, highMatches := ev.highMatches + 1 }) :=
  if_pos ⟨hlo, hhi⟩

/-- Without a match the low byte counts, and its overflow counts in the high byte. -/
theorem pulse16_count {lo hi : TimerCounter} (h : ¬ (lo.count = lo.modulo ∧ hi.count = hi.modulo)) (ev : CountEvents) :
    (pulse16 lo hi ev).1 = { lo with count := lo.count + 1 } ∧
      (pulse16 lo hi ev).2.1 = { hi with count := hi.count + if lo.count = 0xFF then 1 else 0 } ∧
        (pulse16 lo hi ev).2.2.matches_ = ev.matches_ := by
  rw [pulse16, if_neg h]
  refine ⟨rfl, ?_, rfl⟩
  dsimp only
  split
  · rfl
  · rw [show hi.count + 0 = hi.count from BitVec.add_zero _]

/-- The high byte counts the carries. -/
theorem ofNat_add_carry (m : Nat) :
    BitVec.ofNat 8 (m / 256) + (if BitVec.ofNat 8 m = 0xFF then 1 else 0) = BitVec.ofNat 8 ((m + 1) / 256) := by
  rw [← div_add_carry, BitVec.ofNat_add]
  split <;> rfl

theorem pulses16_short {n : Nat} {lo hi : TimerCounter} (hlo : lo.count = 0) (hhi : hi.count = 0)
    (h : n ≤ hi.modulo.toNat * 256 + lo.modulo.toNat) : Counted16 n lo hi (pulses16 n lo hi .zero) := by
  induction n with
  | zero =>
    cases lo
    cases hi
    cases hlo
    cases hhi
    exact ⟨rfl, rfl, rfl⟩
  | succ n ih =>
    obtain ⟨low, high, none⟩ := ih (Nat.le_of_succ_le h)
    have ml := lo.modulo.isLt
    have mh := hi.modulo.isLt
    have noMatch : ¬ (BitVec.ofNat 8 n = lo.modulo ∧ BitVec.ofNat 8 (n / 256) = hi.modulo) := by
      rintro ⟨el, eh⟩
      rw [← el, ← eh, BitVec.toNat_ofNat, BitVec.toNat_ofNat] at h
      omega
    rw [pulses16_succ]
    generalize pulses16 n lo hi .zero = r at low high none
    obtain ⟨l, u, ev⟩ := r
    cases low
    cases high
    obtain ⟨low, high, same⟩ := pulse16_count (lo := { lo with count := BitVec.ofNat 8 n })
      (hi := { hi with count := BitVec.ofNat 8 (n / 256) }) noMatch ev
    refine ⟨low.trans ?_, high.trans ?_, same.trans none⟩
    · rw [ofNat_add_one]
    · rw [ofNat_add_carry]

theorem pulses16_period {lo hi : TimerCounter} (hlo : lo.count = 0) (hhi : hi.count = 0) :
    let r := pulses16 (hi.modulo.toNat * 256 + lo.modulo.toNat + 1) lo hi .zero
    r.1 = { lo with tout := !lo.tout } ∧ r.2.1 = hi ∧ r.2.2.matches_ = 1 := by
  obtain ⟨low, high, none⟩ := pulses16_short hlo hhi (Nat.le_refl _)
  have ml := lo.modulo.isLt
  have mh := hi.modulo.isLt
  have elow : BitVec.ofNat 8 (hi.modulo.toNat * 256 + lo.modulo.toNat) = lo.modulo :=
    BitVec.eq_of_toNat_eq (by rw [BitVec.toNat_ofNat]; omega)
  have ehigh : BitVec.ofNat 8 ((hi.modulo.toNat * 256 + lo.modulo.toNat) / 256) = hi.modulo :=
    BitVec.eq_of_toNat_eq (by rw [BitVec.toNat_ofNat]; omega)
  rw [elow] at low
  rw [ehigh] at high
  dsimp only
  rw [pulses16_succ]
  generalize pulses16 (hi.modulo.toNat * 256 + lo.modulo.toNat) lo hi .zero = r at low high none
  obtain ⟨l, u, ev⟩ := r
  cases low
  cases high
  rw [pulse16_match rfl rfl]
  cases lo
  cases hi
  cases hlo
  cases hhi
  exact ⟨rfl, rfl, congrArg (· + 1) none⟩

/-! ### An advance of the counters (R551, R554, R557) -/

/-- The count pulses of channel 0 while its bit 2 is 1. -/
def State.input0 (s : State) (e : Elapsed) (pe : PinEdges) : Nat := if s.timer0.run then s.pulses0 e pe else 0

/-- The count pulses of channel 1 while its bit 2 is 1. -/
def State.input1 (s : State) (e : Elapsed) (pe : PinEdges) (overflows : Nat) : Nat :=
  if s.timer1.run then s.pulses1 e pe overflows else 0

/-- Channel 1 does not depend on channel 0 unless it counts its overflows. -/
theorem pulses1_eq {s : State} (h : s.timer1.cp ≠ 2) (e : Elapsed) (pe : PinEdges) (o : Nat) :
    s.pulses1 e pe o = s.pulses1 e pe 0 := by
  unfold State.pulses1
  split
  case h_3 h2 => exact absurd (BitVec.eq_of_toNat_eq h2) h
  all_goals rfl

theorem pulses1_overflows {s : State} (h : s.timer1.cp = 2) (e : Elapsed) (pe : PinEdges) (o : Nat) :
    s.pulses1 e pe o = o := by
  rw [State.pulses1, h]
  rfl

section
variable {s : State} {e : Elapsed} {pe : PinEdges} {n : Nat}

theorem advanceTimers_8 (hm : s.timer0.mode ≠ 2) :
    let r0 := s.timer0.pulses (s.input0 e pe) .zero
    let r1 := s.timer1.pulses (s.input1 e pe r0.2.overflows) .zero
    s.advanceTimers e pe = (({ s with timer0 := r0.1, timer1 := r1.1 }).raiseTimers (decide (r0.2.matches_ ≠ 0))
      (decide (r1.2.matches_ ≠ 0)), r0.2.matches_) :=
  if_neg fun h => hm (eq_of_beq h)

theorem advanceTimers_16 (hm : s.timer0.mode = 2) :
    let r := pulses16 (s.input0 e pe) s.timer0 s.timer1 .zero
    s.advanceTimers e pe = (({ s with timer0 := r.1, timer1 := r.2.1 }).raiseTimers (decide (r.2.2.matches_ ≠ 0))
      (decide (r.2.2.highMatches ≠ 0) && Config.irqt1In16 s.freeCount), r.2.2.matches_) :=
  if_pos (beq_iff_eq.mpr hm)

/-- Channel 0 in 8-bit mode: the counter, its request flag, the changes of TOUT F/F 0. -/
theorem advanceTimers_channel0 (hm : s.timer0.mode ≠ 2) {t : TimerCounter} {ev : CountEvents}
    (hn : s.input0 e pe = n) (h : s.timer0.pulses n .zero = (t, ev)) : (s.advanceTimers e pe).1.timer0 = t ∧
      (s.advanceTimers e pe).1.ints.irq.t0 = (s.ints.irq.t0 || decide (ev.matches_ ≠ 0)) ∧
        (s.advanceTimers e pe).2 = ev.matches_ := by
  rw [advanceTimers_8 hm, hn, h]
  exact ⟨rfl, rfl, rfl⟩

/-- Channel 1 in 8-bit mode: the counter and its request flag. -/
theorem advanceTimers_channel1 (hm : s.timer0.mode ≠ 2) {t : TimerCounter} {ev : CountEvents}
    (hn : s.input1 e pe (s.timer0.pulses (s.input0 e pe) .zero).2.overflows = n)
    (h : s.timer1.pulses n .zero = (t, ev)) : (s.advanceTimers e pe).1.timer1 = t ∧
      (s.advanceTimers e pe).1.ints.irq.t1 = (s.ints.irq.t1 || decide (ev.matches_ ≠ 0)) := by
  rw [advanceTimers_8 hm]
  dsimp only
  rw [hn, h]
  exact ⟨rfl, rfl⟩

/-- The combined counter: both bytes and the request flag. -/
theorem advanceTimers_combined (hm : s.timer0.mode = 2) {lo hi : TimerCounter} {k : Nat} (hn : s.input0 e pe = n)
    (h : let r := pulses16 n s.timer0 s.timer1 .zero
      r.1 = lo ∧ r.2.1 = hi ∧ r.2.2.matches_ = k) : (s.advanceTimers e pe).1.timer0 = lo ∧
      (s.advanceTimers e pe).1.timer1 = hi ∧
        (s.advanceTimers e pe).1.ints.irq.t0 = (s.ints.irq.t0 || decide (k ≠ 0)) := by
  obtain ⟨rfl, rfl, rfl⟩ := h
  rw [advanceTimers_16 hm, hn]
  exact ⟨rfl, rfl, rfl⟩

end

/-! ### Timer starts (R552, R569) -/

/-- What a start of channel 0 leaves, with T1 too where `both` holds. -/
structure Started0 (s u : State) (both : Bool) (t : TimerCounter) : Prop where
  timer0 : u.timer0 = t
  timer1 : u.timer1 = if both then { s.timer1 with count := 0 } else s.timer1
  serial : u.serial = if s.timer0.tout = true ∧ s.serial.csim.extractLsb' 0 2 = 1 then s.serial.fall else s.serial
  ints : s.coincidence.1 = false → u.ints = { s.ints with irq := { s.ints.irq with t0 := false } }

theorem startTimer0_started (s : State) (both : Bool) :
    Started0 s (s.startTimer0 both) both { s.timer0 with count := 0, tout := false } where
  timer0 := rfl
  timer1 := rfl
  serial := by
    simp only [State.startTimer0, Bool.and_eq_true, beq_iff_eq]
    rfl
  ints h := by rw [State.startTimer0, h, Bool.false_and]

/-- A start is no change of the count pulse in a running counter (R559 (4)). -/
theorem disturbed_start {v : Byte} (hv : v.getLsbD 3 = true) (t : TimerCounter) : t.disturbed v = false := by
  rw [TimerCounter.disturbed, hv, Bool.not_true, Bool.and_false, Bool.false_and]

theorem mode_bit {v : Byte} (h : v.extractLsb' 0 2 = 0#2 ∨ v.extractLsb' 0 2 = 2#2) :
    (v.extractLsb' 0 2 == 2) = v.getLsbD 1 := by
  revert v
  decide

/-- A write of TM0 with the start bit. -/
theorem writeTm0_start {s u : State} {v : Byte} (hv : v.getLsbD 3 = true) (h : s.writeTm0 v = .next u) :
    Started0 s u (v.getLsbD 1) ({ s.timer0 with count := 0, tout := false }.select v) := by
  unfold State.writeTm0 at h
  rw [hv, disturbed_start hv] at h
  dsimp only at h
  split at h
  · next mode =>
    simp only [Bool.or_eq_true, Bool.and_eq_true, beq_iff_eq] at mode
    rw [if_pos rfl, if_neg Bool.false_ne_true, mode_bit (mode.imp_right And.left)] at h
    cases h
    obtain ⟨-, timer1, serial, ints⟩ := startTimer0_started s (v.getLsbD 1)
    exact ⟨rfl, timer1, serial, ints⟩
  · cases h

/-- What a start of channel 1 leaves. -/
structure Started1 (s u : State) (t : TimerCounter) : Prop where
  timer1 : u.timer1 = t
  timer0 : u.timer0 = s.timer0
  ints : s.coincidence.2 = false → u.ints = { s.ints with irq := { s.ints.irq with t1 := false } }

theorem startTimer1_started (s : State) : Started1 s s.startTimer1 { s.timer1 with count := 0, tout := false } where
  timer1 := rfl
  timer0 := rfl
  ints h := by rw [State.startTimer1, h, Bool.false_and]

/-- A write of TM1 with the start bit. -/
theorem writeTm1_start {s u : State} {v : Byte} (hv : v.getLsbD 3 = true) (h : s.writeTm1 v = .next u) :
    Started1 s u ({ s.timer1 with count := 0, tout := false }.select v) := by
  unfold State.writeTm1 at h
  rw [hv, disturbed_start hv] at h
  dsimp only at h
  split at h
  · rw [if_pos rfl, if_neg Bool.false_ne_true] at h
    cases h
    obtain ⟨-, -, ints⟩ := startTimer1_started s
    exact ⟨rfl, rfl, ints⟩
  · cases h

/-- The start bit of TM1 alone. -/
theorem writeTm1Start_start {s u : State} (h : s.writeTm1Start = .next u) :
    Started1 s u { s.timer1 with count := 0, tout := false } := by
  unfold State.writeTm1Start at h
  split at h
  · cases h
    exact startTimer1_started s
  · cases h

/-! ### The statement -/

/-- Settles O52: a period of each counter by its pulses (`pulses_short`, `pulses_period`, `pulses16_short`,
`pulses16_period`), the overflow of T0 by `pulses_overflow`, and the four writes that start a counter. -/
theorem timersMatchEveryPeriod : Obligations.timers_match_every_period := by
  unfold Obligations.timers_match_every_period
  intro s e pe n r t0 t1
  have stopped0 (h : t0.run = false) : s.input0 e pe = 0 := if_neg (by rw [h]; decide)
  have runs0 (h : t0.run = true) (hn : s.pulses0 e pe = n) : s.input0 e pe = n := (if_pos h).trans hn
  refine ⟨fun run h0 pulses => ⟨fun mode => ?channel0, fun mode h1 => ?combined⟩, fun run h1 mode cp pulses => ?channel1,
    fun run0 run1 mode cp pulses above past short => ?overflow, fun run mode => ?stopped0, fun run mode => ?stopped1,
    fun v u hv h => ?tm0, fun u h => ?start0, fun v u hv h => ?tm1, fun u h => ?start1⟩
  case channel0 =>
    have input := runs0 run pulses
    have mode8 : t0.mode ≠ 2 := by rw [mode]; decide
    refine ⟨fun short => ?_, fun period => ?_⟩
    · obtain ⟨timer, irq, toggles⟩ := advanceTimers_channel0 mode8 input (pulses_short h0 short)
      exact ⟨timer, irq.trans (Bool.or_false _), toggles⟩
    · obtain ⟨timer, irq, toggles⟩ := advanceTimers_channel0 mode8 (input.trans period) (pulses_period h0)
      exact ⟨timer, irq.trans (Bool.or_true _), toggles⟩
  case combined =>
    intro m
    have input := runs0 run pulses
    refine ⟨fun short => ?_, fun period => ?_⟩
    · obtain ⟨low, high, irq⟩ := advanceTimers_combined mode input (pulses16_short h0 h1 short)
      exact ⟨low, high, irq.trans (Bool.or_false _)⟩
    · obtain ⟨low, high, irq⟩ := advanceTimers_combined mode (input.trans period) (pulses16_period h0 h1)
      exact ⟨low, high, irq.trans (Bool.or_true _)⟩
  case channel1 =>
    have input (o : Nat) : s.input1 e pe o = n := (if_pos run).trans ((pulses1_eq cp e pe o).trans pulses)
    refine ⟨fun short => ?_, fun period => ?_⟩
    · obtain ⟨timer, irq⟩ := advanceTimers_channel1 mode (input _) (pulses_short h1 short)
      exact ⟨timer, irq.trans (Bool.or_false _)⟩
    · obtain ⟨timer, irq⟩ := advanceTimers_channel1 mode ((input _).trans period) (pulses_period h1)
      exact ⟨timer, irq.trans (Bool.or_true _)⟩
  case overflow =>
    have input0 := runs0 run0 pulses
    have counted := pulses_overflow above past short
    have input1 (o : Nat) : s.input1 e pe o = o := (if_pos run1).trans (pulses1_overflows cp e pe o)
    obtain ⟨timer0, -, -⟩ := advanceTimers_channel0 mode input0 counted
    obtain ⟨timer1, -⟩ := advanceTimers_channel1 (n := 1) mode (by rw [input0, counted, input1]) rfl
    refine ⟨timer0, timer1.trans ?_⟩
    rw [TimerCounter.pulse]
    split <;> rfl
  case stopped0 =>
    obtain ⟨timer, -, -⟩ := advanceTimers_channel0 mode (stopped0 run) rfl
    exact timer
  case stopped1 =>
    have input (o : Nat) : s.input1 e pe o = 0 := if_neg (by rw [run]; decide)
    obtain ⟨timer, -⟩ := advanceTimers_channel1 mode (input _) rfl
    exact timer
  case tm0 =>
    obtain ⟨timer0, timer1, serial, ints⟩ := writeTm0_start hv h
    exact ⟨timer0, timer1, serial, ints⟩
  case start0 =>
    cases h
    obtain ⟨timer0, timer1, serial, ints⟩ := startTimer0_started s s.mode16
    refine ⟨timer0, timer1.trans ?_, serial, ints⟩
    simp only [State.mode16, beq_iff_eq]
    rfl
  case tm1 =>
    obtain ⟨timer1, timer0, ints⟩ := writeTm1_start hv h
    exact ⟨timer1, timer0, ints⟩
  case start1 =>
    obtain ⟨timer1, timer0, ints⟩ := writeTm1Start_start h
    exact ⟨timer1, timer0, ints⟩

end Sys2Proof.Machine
end

section
/-! A change of the CPU clock (65_peripherals.md R511, R512, R515). The statement `clock_change_delay`. -/

namespace Sys2Proof.Machine

/-! ### The delay of Table 5-5 -/

theorem fxPerCycle_pos (p : Phi) : 0 < p.fxPerCycle := by
  unfold Phi.fxPerCycle
  split <;> decide

/-- From the subsystem clock: one machine cycle. -/
theorem maxDelay_sub {p : Phi} (h : p.sub = true) (q : Phi) (chip : Chip) : p.maxDelay q chip = 1 :=
  if_pos h

/-- Between main clocks: 64 periods of fX, in machine cycles of the clock before the change. -/
theorem maxDelay_main {p q : Phi} (hp : p.sub = false) (hq : q.sub = false) (chip : Chip) :
    p.maxDelay q chip = 64 / p.fxPerCycle := by
  simp only [Phi.maxDelay, hp, hq, Bool.false_eq_true, if_false]

/-- To the subsystem clock: one period of fXT, rounded up. -/
theorem maxDelay_toSub {p q : Phi} (hp : p.sub = false) (hq : q.sub = true) {chip : Chip} (hxt : 0 < chip.fxtHz) :
    p.maxDelay q chip * (p.fxPerCycle * chip.fxtHz) < chip.fxHz + p.fxPerCycle * chip.fxtHz := by
  have cycle : 0 < p.fxPerCycle * chip.fxtHz := Nat.mul_pos (fxPerCycle_pos p) hxt
  have rounded := Nat.div_mul_le_self (chip.fxHz + p.fxPerCycle * chip.fxtHz - 1) (p.fxPerCycle * chip.fxtHz)
  simp only [Phi.maxDelay, hp, hq, Bool.false_eq_true, if_false, if_true]
  omega

/-! ### A pending change runs down -/

section
variable {s : State} {d c : Nat} (h : s.clk.switchIn = some d)
include h

theorem tickSwitch_early (hc : c < d) :
    s.tickSwitch c = { s with clk := { s.clk with switchIn := some (d - c) } } := by
  simp only [State.tickSwitch, h, if_neg (Nat.not_le.mpr hc)]

/-- At the end of the delay the new clock comes into effect, or is waited for (log 23). -/
theorem tickSwitch_due (hc : d ≤ c) : s.tickSwitch c =
    { s with
      clk := if s.available s.clk.target then { s.clk with phi := s.clk.target, switchIn := none }
        else { s.clk with switchIn := some 0 } } := by
  simp only [State.tickSwitch, h, if_pos hc]
  split <;> rfl

end

/-- After a write that selects another CPU clock, a change that is pending has the old clock in effect, and its delay is
within the table's maximum. -/
theorem armSwitch_pending {s before : State} {d : Nat} (h : (s.armSwitch before).clk.switchIn = some d)
    (other : s.clk.target.same before.clk.target = false) :
    (s.armSwitch before).clk.phi = s.clk.phi ∧ d ≤ s.clk.phi.maxDelay s.clk.target s.chip := by
  have drawn := Nat.mod_lt (Config.clockDelay s.freeCount) (Nat.succ_pos (s.clk.phi.maxDelay s.clk.target s.chip))
  unfold State.armSwitch at h ⊢
  dsimp only at h ⊢
  rw [if_neg (by rw [other]; decide)] at h ⊢
  split at h
  · cases h
  · next changes =>
    rw [if_neg changes]
    generalize Config.clockDelay s.freeCount % (s.clk.phi.maxDelay s.clk.target s.chip + 1) = k at drawn h ⊢
    cases k with
    | zero =>
      rw [tickSwitch_due rfl (Nat.le_refl 0)] at h ⊢
      dsimp only at h ⊢
      split at h
      · cases h
      · next waits =>
        cases h
        rw [if_neg waits]
        exact ⟨rfl, Nat.zero_le _⟩
    | succ k =>
      rw [tickSwitch_early rfl (Nat.succ_pos k)] at h ⊢
      cases h
      exact ⟨rfl, Nat.le_of_lt_succ drawn⟩

/-- Settles O56: the delay that is drawn lies within the maximum of the table (`armSwitch_pending`), and runs down by the
machine cycles that pass. -/
theorem clockChangeDelay : Obligations.clock_change_delay := by
  unfold Obligations.clock_change_delay
  intro s before d c per
  refine ⟨fun pending other => ?bound, fun pending early => tickSwitch_early pending early, fun pending due => ?due⟩
  case bound =>
    obtain ⟨old, within⟩ := armSwitch_pending pending other
    refine ⟨old, fun sub => within.trans_eq (maxDelay_sub sub _ _), fun main toMain => ?main, fun main toSub hxt => ?toSub⟩
    case main =>
      rw [maxDelay_main main toMain, Phi.fxPerCycle] at within
      refine within.trans_eq ?_
      generalize s.clk.phi.sel = sel
      revert sel
      decide
    case toSub => exact (Nat.mul_le_mul_right _ within).trans_lt (maxDelay_toSub main toSub hxt)
  case due =>
    rw [tickSwitch_due pending due]
    rfl

end Sys2Proof.Machine
end

section
/-! The serial interface and the A/D converter (66_serial_adc_bsb.md R561 to R568, R571 to R573). The statements
`serial_transfer` and `analog_conversion`. -/

namespace Sys2Proof.Machine

/-! ### The bit order of SIO (R568) -/

theorem bitReverse_bit (v : Byte) {i : Nat} (h : i < 8) : (bitReverse v).getLsbD i = v.getLsbD (7 - i) := by
  revert i
  revert v
  decide

theorem order_reversed {u : Serial} (h : u.csim.getLsbD 3 = false ∧ u.csim.getLsbD 2 = true) (v : Byte) :
    u.order v = bitReverse v := by
  rw [Serial.order, h.1, h.2]
  rfl

theorem order_plain {u : Serial} (h : ¬ (u.csim.getLsbD 3 = false ∧ u.csim.getLsbD 2 = true)) (v : Byte) :
    u.order v = v :=
  if_neg (by rwa [Bool.and_eq_true, Bool.not_eq_true'])

/-! ### One clock of a transfer (R565, R567) -/

/-- What clock `k` of a transfer that starts from `u` shifts in, with the levels `p` of port 0 at its rising edge: SI, or in
2-wire mode the line SB0 or SB1, low where the chip sends 0. -/
def Serial.received (u : Serial) (k : Nat) (p : Nibble) : Bool :=
  if u.csim.getLsbD 3 then u.sio.getLsbD (7 - k) && p.getLsbD (if u.csim.getLsbD 4 then 3 else 2) else p.getLsbD 3

theorem fall_running {u : Serial} (h7 : u.csim.getLsbD 7 = true) (hr : u.running = true) : u.fall =
    { u with soLatch := u.sio.getLsbD 7, sio := u.sio.extractLsb' 0 7 ++ u.sio.extractLsb' 0 1, sckLow := u.sckOut } := by
  rw [Serial.fall, Serial.csie, h7, hr]
  rfl

/-- A rising edge behind a falling one of a running transfer: the eighth ends it and asks for the interrupt. -/
theorem rise_running {u : Serial} (h7 : u.csim.getLsbD 7 = true) (hr : u.running = true) (hs : u.sckLow = u.sckOut)
    (p : Nibble) : u.rise p =
      ({ u with sio := u.sio.extractLsb' 1 7 ++ BitVec.ofBool (u.input p), count := u.count + 1, sckLow := false,
                running := decide (u.count + 1 ≠ 8) }, decide (u.count + 1 = 8)) := by
  rw [Serial.rise, Serial.csie, h7, hr, hs, Bool.not_or_self]
  dsimp only
  rw [if_pos (by rfl)]
  split
  · next last => simp [last]
  · next before => simp [before]

/-- The level on the input pin, where the SO latch has taken bit 7 of the shift register. -/
theorem input_eq_received {u x : Serial} (hc : x.csim = u.csim) (hl : x.soLatch = u.sio.getLsbD 7) (p : Nibble) :
    x.input p = u.received 0 p := by
  rw [Serial.input, Serial.twoWire, Serial.received, hc, hl]
  split
  · split <;> rfl
  · rfl

/-- The seven bits that a falling edge moves up stay where they are at the rising edge. -/
theorem shifted_high (v : Byte) : (v.extractLsb' 0 7 ++ v.extractLsb' 0 1 : Byte).extractLsb' 1 7 = v.extractLsb' 0 7 := by
  revert v
  decide

/-- A whole clock of a running transfer. -/
theorem clock_running {u : Serial} (h7 : u.csim.getLsbD 7 = true) (hr : u.running = true) (p : Nibble) : u.fall.rise p =
    ({ u with soLatch := u.sio.getLsbD 7, sio := u.sio.extractLsb' 0 7 ++ BitVec.ofBool (u.received 0 p),
              count := u.count + 1, sckLow := false, running := decide (u.count + 1 ≠ 8) }, decide (u.count + 1 = 8)) := by
  have fallen := fall_running h7 hr
  have taken : u.fall.input p = u.received 0 p := input_eq_received (by rw [fallen]) (by rw [fallen]) p
  rw [rise_running (by rw [fallen]; exact h7) (by rw [fallen]; exact hr) (by rw [fallen]; rfl), taken, fallen]
  dsimp only
  rw [shifted_high]

/-! ### The clocks of a transfer -/

/-- A bit shifted in below seven others. -/
theorem shiftIn_bits (v : Byte) (b : Bool) : (v.extractLsb' 0 7 ++ BitVec.ofBool b : Byte).getLsbD 0 = b ∧
    ∀ i < 7, (v.extractLsb' 0 7 ++ BitVec.ofBool b : Byte).getLsbD (i + 1) = v.getLsbD i := by
  revert v b
  decide

theorem serialClocks_append (ps : List Nibble) (p : Nibble) (u : Serial) : serialClocks (ps ++ [p]) u =
    (((serialClocks ps u).1.fall.rise p).1, (serialClocks ps u).2 || ((serialClocks ps u).1.fall.rise p).2) :=
  List.foldl_append

/-- A transfer begun at `u`, after the clocks `ps`: the bits of `u` have moved up, and what was received stands below them,
the last bit in bit 0. -/
structure Transferred (u : Serial) (ps : List Nibble) (r : Serial × Bool) : Prop where
  csim : r.1.csim = u.csim
  count : r.1.count = ps.length
  running : r.1.running = decide (ps.length ≠ 8)
  request : r.2 = decide (ps.length = 8)
  moved : ∀ i, i + ps.length < 8 → r.1.sio.getLsbD (i + ps.length) = u.sio.getLsbD i
  received : ∀ k (h : k < ps.length), r.1.sio.getLsbD (ps.length - 1 - k) = u.received k ps[k]

theorem Transferred.bit7 {u : Serial} {ps : List Nibble} {r : Serial × Bool} (h : Transferred u ps r)
    (hn : ps.length < 8) : r.1.sio.getLsbD 7 = u.sio.getLsbD (7 - ps.length) := by
  rw [← h.moved (7 - ps.length) (by omega), Nat.sub_add_cancel (by omega)]

theorem serialClocks_transferred {u : Serial} (h7 : u.csim.getLsbD 7 = true) (hr : u.running = true) (h0 : u.count = 0)
    {ps : List Nibble} (hn : ps.length ≤ 8) : Transferred u ps (serialClocks ps u) := by
  induction ps using List.reverseRecOn with
  | nil => exact ⟨rfl, h0, hr, rfl, fun i _ => rfl, fun k hk => absurd hk (Nat.not_lt_zero k)⟩
  | append_singleton ps p ih =>
    have len : (ps ++ [p]).length = ps.length + 1 := List.length_append
    rw [len] at hn
    have before := ih (Nat.le_of_succ_le hn)
    have bit7 := before.bit7 hn
    rw [serialClocks_append]
    generalize serialClocks ps u = x at before bit7 ⊢
    obtain ⟨x, irq⟩ := x
    obtain ⟨csim, count, running, request, moved, received⟩ := before
    dsimp only at csim count running request moved received bit7 ⊢
    rw [decide_eq_true (by omega)] at running
    rw [decide_eq_false (by omega)] at request
    obtain ⟨low, high⟩ := shiftIn_bits x.sio (x.received 0 p)
    rw [clock_running (csim ▸ h7) running p, request, count]
    refine ⟨csim, len.symm, by rw [len], by rw [len]; rfl, fun i hi => ?moved, fun k hk => ?received⟩
    case moved =>
      rw [len] at hi ⊢
      exact (high (i + ps.length) (by omega)).trans (moved i (by omega))
    case received =>
      rw [len] at hk ⊢
      rw [Nat.add_sub_cancel]
      by_cases last : k = ps.length
      · subst last
        rw [Nat.sub_self, List.getElem_concat_length rfl]
        refine low.trans ?_
        rw [Serial.received, Serial.received, csim, ← bit7]
      · have before : k < ps.length := by omega
        have place : ps.length - k = ps.length - 1 - k + 1 := by omega
        rw [List.getElem_append_left before, ← received k before, place]
        exact high _ (by omega)

/-! ### Writes of the serial registers (R561, R563) -/

/-- CSIE = 0 stops a transfer. -/
theorem gate_stops {u : Serial} (h : u.csim.getLsbD 7 = false) :
    u.gate = { u with running := false, count := 0, sckLow := false } :=
  if_neg (by rw [Serial.csie, h]; decide)

/-- CSIM with bit 7 cleared. -/
theorem csim_clear (c : Byte) : (c &&& 0x7F) ||| (BitVec.ofBool false ++ 0#7) = c &&& 0x7F ∧
    (c &&& 0x7F).getLsbD 7 = false := by
  revert c
  decide

theorem write_csie_clear (s : State) : s.ioWriteBit 0xFE1 3 false = .next { s with serial :=
    { s.serial with csim := s.serial.csim &&& 0x7F, running := false, count := 0, sckLow := false } } := by
  obtain ⟨cleared, bit7⟩ := csim_clear s.serial.csim
  show Host.Outcome.next { s with serial := Serial.gate { s.serial with csim := _ } } = _
  rw [cleared, gate_stops (by exact bit7)]

/-- A 0 written to RELT or CMDT does nothing. -/
theorem write_sbic_zero (s : State) (b : BitVec 2) : s.ioWriteBit 0xFE2 b false = .next s := by
  refine congrArg Host.Outcome.next ?_
  rw [if_neg fun h => Bool.false_ne_true h.2, if_neg fun h => Bool.false_ne_true h.2]

/-- Settles O53: the byte by the bit order; the clocks by `serialClocks_transferred`; the other writes as defined. -/
theorem serialTransfer : Obligations.serial_transfer := by
  unfold Obligations.serial_transfer
  intro s v ps u reversed
  refine ⟨⟨u.order v, rfl, fun h i hi => ?written, order_plain (v := v)⟩, fun i hi => ?read,
    fun h7 running h0 hn => ⟨fun before => ?running, fun last => ?done⟩, rfl, rfl, write_sbic_zero s, write_csie_clear s⟩
  case written => rw [order_reversed h, bitReverse_bit v hi]
  case read =>
    show (u.order u.sio).getLsbD i = _
    split
    · next h => rw [order_reversed h, bitReverse_bit u.sio hi]
    · next h => rw [order_plain h]
  all_goals have clocked := serialClocks_transferred h7 running h0 hn
  case running =>
    have runs : (serialClocks ps u).1.running = true := clocked.running.trans (decide_eq_true (by omega))
    refine ⟨clocked.request.trans (decide_eq_false (by omega)), runs, ?_⟩
    rw [fall_running (clocked.csim ▸ h7) runs]
    exact clocked.bit7 before
  case done =>
    refine ⟨clocked.request.trans (decide_eq_true last), clocked.running.trans (decide_eq_false (not_not.mpr last)),
      clocked.count.trans last, fun k hk => ?_⟩
    have shifted := clocked.received k hk
    rwa [last] at shifted

/-! ### An A/D conversion (R571 to R573) -/

/-- A write of ADM with SOC = 1: the conversion is pending, and SA undefined. -/
theorem writeAdm_start {v : Byte} (h : v.getLsbD 3 = true) (s : State) : s.writeAdm v = { s with adc := { s.adc with
    aden := v.getLsbD 7, ch := v.extractLsb' 4 3, pending := some (Config.adcDelay s.freeCount % 17), conv := none,
    saValid := false } } :=
  if_pos h

section
variable {t : State} {d n : Nat} {e : Elapsed}

theorem advanceConversion_runs {c : Conversion} (h : t.adc.conv = some c) (hn : n < c.left) : t.advanceConversion n =
    { t with adc := { t.adc with conv := some { c with left := c.left - n } } } := by
  simp only [State.advanceConversion, h, if_neg (Nat.not_le.mpr hn)]

theorem advanceConversion_ends {c : Conversion} (h : t.adc.conv = some c) (hn : c.left ≤ n) :
    t.advanceConversion n = t.endConversion c := by
  simp only [State.advanceConversion, h, if_pos hn]

variable (hf : t.fxRunning = true) (hp : t.adc.pending = some d)
include hf hp

theorem advanceAdc_pending (h : e.fx < d) :
    t.advanceAdc e = { t with adc := { t.adc with pending := some (d - e.fx) } } := by
  simp only [State.advanceAdc, hf, hp, if_true, if_neg (Nat.not_le.mpr h)]

theorem advanceAdc_begins (h : d ≤ e.fx) : t.advanceAdc e = t.beginConversion.advanceConversion (e.fx - d) := by
  simp only [State.advanceAdc, hf, hp, if_true, if_pos h]

end

/-- Settles O54: an advance ends before the conversion starts, while it runs, or after its 168 periods. -/
theorem analogConversion : Obligations.analog_conversion := by
  unfold Obligations.analog_conversion
  intro s v e soc runs t r
  have started : t = _ := writeAdm_start soc s
  have pending : t.adc.pending = some (Config.adcDelay s.freeCount % 17) := by rw [started]
  have still : t.fxRunning = true := by
    rw [started]
    exact runs
  refine ⟨by rw [started], by rw [started], by rw [started], Config.adcDelay s.freeCount % 17,
    Nat.le_of_lt_succ (Nat.mod_lt _ (by decide)), pending, fun early => ?pending, fun begun before => ?converts,
    fun done => ?done⟩
  case pending => exact congrArg State.adc (advanceAdc_pending still pending early)
  case converts =>
    have running : r = _ := (advanceAdc_begins still pending begun).trans 
      (advanceConversion_runs rfl (Nat.sub_lt_left_of_lt_add begun before))
    rw [running, started]
    exact ⟨rfl, rfl, rfl⟩
  case done =>
    have ended : r = _ := (advanceAdc_begins still pending (by omega)).trans 
      (advanceConversion_ends rfl (Nat.le_sub_of_add_le' done))
    rw [ended, started]
    exact ⟨rfl, rfl, rfl, rfl⟩

end Sys2Proof.Machine
end

section
/-! The input/output ports 2 to 6: reading, writing, the levels on their pins; BUZ and PCL (65_peripherals.md R486 to R494,
R518 to R521, R541, R543, R556). The statements `port_latches_and_pins` and `output_pins`. -/

namespace Sys2Proof.Machine

/-! ### Bits of a nibble -/

theorem nibMux_bit (m t e : Nibble) {k : Nat} (hk : k < 4) :
    (nibMux m t e).getLsbD k = if m.getLsbD k then t.getLsbD k else e.getLsbD k := by
  rw [nibMux, BitVec.getLsbD_or, BitVec.getLsbD_and, BitVec.getLsbD_and, BitVec.getLsbD_not, decide_eq_true hk]
  cases m.getLsbD k <;> simp

theorem nibMux_ones (t e : Nibble) : nibMux 0xF t e = t := by
  revert t e
  decide

theorem nibAll_bit (b : Bool) {k : Nat} (hk : k < 4) : (nibAll b).getLsbD k = b := by
  revert k
  revert b
  decide

theorem nibSet_bit (w : Nibble) (b : BitVec 2) (v : Bool) : (nibSet w b v).getLsbD b.toNat = v := by
  revert w b v
  decide

theorem nibSet_other (w : Nibble) {b : BitVec 2} (v : Bool) {k : Nat} (hk : k < 4) (h : k ≠ b.toNat) :
    (nibSet w b v).getLsbD k = w.getLsbD k := by
  revert k
  revert w b v
  decide

/-! ### Latches (R486, R493, R494) -/

/-- What the peripheral registers of the input/output ports are (R42). -/
theorem port_registers {n : Nat} (hn : n ∈ [2, 3, 4, 5, 6]) (s : State) :
    s.ioRead4 (BitVec.ofNat 12 (0xFF0 + n)) = nibMux (s.portMode n) (s.portLatch n) (s.hostPin n) ∧
    (∀ v, s.ioWrite4 (BitVec.ofNat 12 (0xFF0 + n)) v = .next (s.setLatch n v)) ∧
    ∀ b x, s.ioWriteBit (BitVec.ofNat 12 (0xFF0 + n)) b x = .next (s.setLatch n (s.latchAfterBit n b x)) := by
  simp only [List.mem_cons, List.not_mem_nil, or_false] at hn
  obtain rfl | rfl | rfl | rfl | rfl := hn <;> exact ⟨rfl, fun _ => rfl, fun _ _ => rfl⟩

theorem setLatch_same {n : Nat} (hn : n ∈ [2, 3, 4, 5, 6]) (s : State) (v : Nibble) : (s.setLatch n v).portLatch n = v := by
  simp only [List.mem_cons, List.not_mem_nil, or_false] at hn
  obtain rfl | rfl | rfl | rfl | rfl := hn <;> rfl

theorem setLatch_other (s : State) (v : Nibble) {m n : Nat} (h : m ≠ n) : (s.setLatch n v).portLatch m = s.portLatch m := by
  unfold State.setLatch
  split
  case h_6 => rfl
  all_goals
    unfold State.portLatch
    split <;> trivial

/-- Where the whole port is in output mode a bit write changes one bit. -/
theorem latchAfterBit_output {s : State} {n : Nat} (h : s.portMode n = 0xF) (b : BitVec 2) (x : Bool) :
    s.latchAfterBit n b x = withBit (s.portLatch n) b x := by
  have ones : nibBit 0xF b = true := by revert b; decide
  rw [State.latchAfterBit, h, ones]
  exact (congrArg (nibSet · b x) (nibMux_ones _ _)).trans (nibSet_eq_withBit _ b x)

/-- A bit write keeps another bit where both are in output mode. -/
theorem latchAfterBit_kept {s : State} {n k : Nat} {b : BitVec 2} (hb : (s.portMode n).getLsbD b.toNat = true)
    (hk : (s.portMode n).getLsbD k = true) (h4 : k < 4) (h : k ≠ b.toNat) (x : Bool) :
    (s.latchAfterBit n b x).getLsbD k = (s.portLatch n).getLsbD k := by
  rw [State.latchAfterBit, nibBit, hb, nibSet_other _ x h4 h, if_pos rfl, nibMux_bit _ _ _ h4, if_pos hk]

/-- Settles O55: the registers are those of `port_registers`; what a bit write leaves in the latch is `latchAfterBit`. -/
theorem portLatchesAndPins : Obligations.port_latches_and_pins := by
  unfold Obligations.port_latches_and_pins
  intro s t n v b x hn
  obtain ⟨reads, writes, bitWrites⟩ := port_registers hn s
  have written (w : Nibble) (h : .next (s.setLatch n w) = (.next t : Result)) :
      t.portLatch n = w ∧ ∀ m, m ≠ n → t.portLatch m = s.portLatch m := by
    cases h
    exact ⟨setLatch_same hn s w, fun m hm => setLatch_other s w hm⟩
  refine ⟨fun k hk => ?read, fun h => written v ((writes v).symm.trans h), fun output h => ?output, _, bitWrites b x, ?bit,
    fun k hk hb hkb hne => ?kept, fun m hm => setLatch_other s _ hm⟩
  case read => rw [reads, nibMux_bit _ _ _ hk]
  case output =>
    rw [← latchAfterBit_output output]
    exact written _ ((bitWrites b x).symm.trans h)
  all_goals rw [setLatch_same hn]
  case bit => exact nibSet_bit _ b x
  case kept => exact latchAfterBit_kept hb hkb hk hne x

/-! ### Pins (R486 to R489, R556, Table 5-3) -/

/-- In output mode a pin gives `v`, in input mode what the host drives. -/
theorem pin_bit {s : State} {n : Nat} {v : Nibble} (h : s.pinLevels n = nibMux (s.portMode n) v (s.hostPin n)) {k : Nat}
    (hk : k < 4) :
    (s.pinLevels n).getLsbD k = if (s.portMode n).getLsbD k then v.getLsbD k else (s.hostPin n).getLsbD k := by
  rw [h, nibMux_bit _ _ _ hk]

theorem pin_output {s : State} {n : Nat} {v : Nibble} (h : s.pinLevels n = nibMux (s.portMode n) v (s.hostPin n)) {k : Nat}
    (hk : k < 4) (hm : (s.portMode n).getLsbD k = true) : (s.pinLevels n).getLsbD k = v.getLsbD k :=
  (pin_bit h hk).trans (if_pos hm)

/-- A pin that nothing of the chip drives has no level of the chip. -/
theorem released_ne_level (s : State) (n : Nat) (b : BitVec 2) (high : Bool) : s.released n b ≠ .level high := by
  unfold State.released
  split <;> exact Drive.noConfusion

/-- A pin with a push-pull output: ports 2, 3 and 6. -/
theorem pinDrive_cmos {n : Nat} (hn : n ∈ [2, 3, 6]) (s : State) (b : BitVec 2) : s.pinDrive n b =
    if (s.portMode n).getLsbD b.toNat then .level ((s.pinLevels n).getLsbD b.toNat) else s.released n b := by
  simp only [List.mem_cons, List.not_mem_nil, or_false] at hn
  obtain rfl | rfl | rfl := hn
  · have mode : (s.portMode 2).getLsbD b.toNat = s.ports.pm2 := nibAll_bit _ b.isLt
    split
    · next h =>
      rw [pin_output (v := s.portLatch 2 ||| s.port2Function) rfl b.isLt h]
      exact if_pos (mode.symm.trans h)
    · next h => exact if_neg (mode ▸ h)
  all_goals
    split
    · next h =>
      rw [pin_output (v := s.portLatch _) rfl b.isLt h]
      exact if_pos h
    · next h => exact if_neg h

/-- A pin with an open-drain output: ports 4 and 5. -/
theorem pinDrive_openDrain {n : Nat} (hn : n ∈ [4, 5]) (s : State) (b : BitVec 2) : s.pinDrive n b =
    if (s.portMode n).getLsbD b.toNat && !(s.portLatch n).getLsbD b.toNat then .level false else s.released n b := by
  simp only [List.mem_cons, List.not_mem_nil, or_false] at hn
  obtain rfl | rfl := hn <;> rfl

/-- The pins of a port in each mode, as the statement says it. -/
theorem pinDrive_modes {n : Nat} (hn : n ∈ [2, 3, 4, 5, 6]) (s : State) (b : BitVec 2) :
    ((s.portMode n).getLsbD b.toNat = false → ∀ high, s.pinDrive n b ≠ .level high) ∧
    ((s.portMode n).getLsbD b.toNat = true → n ∈ [2, 3, 6] →
      s.pinDrive n b = .level ((s.pinLevels n).getLsbD b.toNat)) ∧
    ((s.portMode n).getLsbD b.toNat = true → n ∈ [4, 5] →
      if (s.portLatch n).getLsbD b.toNat then ∀ high, s.pinDrive n b ≠ .level high
      else s.pinDrive n b = .level false) := by
  refine ⟨fun input high => ?input, fun output cmos => ?cmos, fun output openDrain => ?openDrain⟩
  case input =>
    have released : s.pinDrive n b = s.released n b := by
      have kinds : n ∈ [2, 3, 6] ∨ n ∈ [4, 5] := by
        simp only [List.mem_cons, List.not_mem_nil, or_false] at hn ⊢
        omega
      obtain cmos | openDrain := kinds
      · rw [pinDrive_cmos cmos, input, if_neg Bool.false_ne_true]
      · rw [pinDrive_openDrain openDrain, input, Bool.false_and, if_neg Bool.false_ne_true]
    rw [released]
    exact released_ne_level s n b high
  case cmos => rw [pinDrive_cmos cmos, if_pos output]
  case openDrain =>
    rw [pinDrive_openDrain openDrain, output, Bool.true_and]
    cases (s.portLatch n).getLsbD b.toNat
    · rfl
    · exact released_ne_level s n b

/-! ### BUZ (R541, R543) -/

theorem buzLevel_off {s : State} (h : s.watch.wm.getLsbD 7 = false) : s.buzLevel = false := by
  rw [State.buzLevel, h, Bool.false_and]

/-- The frequency codes 00 and 01. -/
theorem buz_code {wm : Byte} (h : wm.getLsbD 5 = false) :
    (wm.extractLsb' 4 2).toNat = if wm.getLsbD 4 then 1 else 0 := by
  revert wm
  decide

/-- A tap of the watch timer's divider. -/
theorem buzLevel_tap {s : State} (h : s.watch.wm.getLsbD 7 = true) (h5 : s.watch.wm.getLsbD 5 = false) :
    s.buzLevel = s.watch.div.getLsbD (if s.watch.wm.getLsbD 4 then 2 else 3) := by
  rw [State.buzLevel, h, buz_code h5]
  cases s.watch.wm.getLsbD 4 <;> rfl

/-- BUZ is on with the frequency code 11. -/
structure BuzUndivided (s : State) : Prop where
  on : s.watch.wm.getLsbD 7 = true
  code : s.watch.wm.extractLsb' 4 2 = 3

theorem BuzUndivided.level {s : State} (h : BuzUndivided s) :
    s.buzLevel = if s.watch.wm.getLsbD 0 then s.fxtHigh else s.clk.div.getLsbD 6 := by
  rw [State.buzLevel, h.on, h.code]
  rfl

/-- The phase of fXT decides alone on BUZ, with WM0 = 1. -/
theorem BuzUndivided.level_congr {s t : State} (h : BuzUndivided s) (h0 : s.watch.wm.getLsbD 0 = true)
    (hw : t.watch.wm = s.watch.wm) : s.buzLevel = s.fxtHigh ∧ t.buzLevel = t.fxtHigh := by
  have undivided : BuzUndivided t := ⟨hw ▸ h.on, hw ▸ h.code⟩
  exact ⟨by rw [h.level, if_pos h0], by rw [undivided.level, hw, if_pos h0]⟩

theorem fxtHigh_iff (s : State) : s.fxtHigh = true ↔ s.chip.fxHz ≤ 2 * s.clk.fxtRem := decide_eq_true_iff

theorem advanceDividers_wm (s : State) (c : Nat) (e : Elapsed) : (s.advanceDividers c e).watch.wm = s.watch.wm :=
  congrArg Modes.wm (advanceDividers_modes s c e)

/-- The phase of fXT stands still while fXT does not run, and is the same after whole periods. -/
theorem advanceDividers_fxtRem_same {s : State} (h : s.fxtRunning = false ∨ s.onFx = false) (c : Nat) (e : Elapsed) :
    (s.advanceDividers c e).clk.fxtRem = s.clk.fxtRem := by
  unfold State.advanceDividers State.keepRemainders
  obtain h | h := h
  · rw [h, Bool.false_and, if_neg Bool.false_ne_true]
    split <;> rfl
  · rw [h, if_neg Bool.false_ne_true]
    split <;> rfl

theorem advanceDividers_fxtRem {s : State} (hxt : s.fxtRunning = true) (hx : s.onFx = true) (c : Nat) (e : Elapsed) :
    (s.advanceDividers c e).clk.fxtRem = (s.clk.fxtRem + c * s.clk.phi.fxPerCycle * s.chip.fxtHz) % s.chip.fxHz := by
  simp only [State.advanceDividers, State.keepRemainders, hxt, hx, if_true]

theorem advanceDividers_chip (s : State) (c : Nat) (e : Elapsed) : (s.advanceDividers c e).chip = s.chip :=
  (advanceDividers_sameCpu s c e).fields.1

/-! ### The taps of the fX divider (R520, R521) -/

/-- The next multiple of `p` above `a`. -/
theorem exists_multiple_iff {p : Nat} (hp : 0 < p) (a n : Nat) :
    (∃ i ≤ n, 1 ≤ i ∧ (a + i) % p = 0) ↔ p - a % p ≤ n := by
  have below := Nat.mod_lt a hp
  constructor
  · rintro ⟨i, hi, h1, h0⟩
    by_contra short
    rw [Nat.add_mod, Nat.mod_eq_of_lt (a := i) (by omega), Nat.mod_eq_of_lt (by omega)] at h0
    omega
  · intro h
    refine ⟨p - a % p, h, by omega, ?_⟩
    have next : a + (p - a % p) = p * (a / p) + p := by
      have := Nat.div_add_mod a p
      omega
    rw [next, Nat.add_mod_right, Nat.mul_mod_right]

/-- The quotient by `p` rises where a multiple of `p` is passed. -/
theorem div_lt_div_iff_next_multiple {p : Nat} (hp : 0 < p) (a n : Nat) : a / p < (a + n) / p ↔ p - a % p ≤ n := by
  have whole := Nat.div_add_mod' a p
  rw [← Nat.succ_le_iff, Nat.le_div_iff_mul_le hp, Nat.succ_mul]
  omega

/-- Half a period further on. -/
theorem add_half_mod_iff {p : Nat} (hp : 0 < p) (x : Nat) : (x + p) % (2 * p) = 0 ↔ x % (2 * p) = p := by
  have below := Nat.mod_lt x (show 0 < 2 * p by omega)
  rw [Nat.add_mod_eq_ite, Nat.mod_eq_of_lt (show p < 2 * p by omega)]
  split <;> omega

/-- A rising edge of a tap is where the second half of its period begins. -/
theorem divRises_ne_zero_iff (d n j : Nat) :
    divRises d n j ≠ 0 ↔ ∃ i ≤ n, 1 ≤ i ∧ (d + i) % 2 ^ (j + 1) = 2 ^ j := by
  have half : 0 < 2 ^ j := Nat.two_pow_pos j
  have shift (i : Nat) : (d + i) % 2 ^ (j + 1) = 2 ^ j ↔ (d + 2 ^ j + i) % 2 ^ (j + 1) = 0 := by
    rw [Nat.pow_succ', ← add_half_mod_iff half, Nat.add_right_comm]
  simp only [shift]
  rw [exists_multiple_iff (Nat.two_pow_pos _), ← div_lt_div_iff_next_multiple (Nat.two_pow_pos _), divRises,
    Nat.add_right_comm, Nat.sub_ne_zero_iff_lt]

/-- A tap is high in the second half of its period. -/
theorem testBit_iff_half (x j : Nat) : x.testBit j = true ↔ 2 ^ j ≤ x % 2 ^ (j + 1) := by
  have low := Nat.mod_lt x (Nat.two_pow_pos j)
  rw [Nat.testBit_eq_decide_div_mod_eq, decide_eq_true_iff, Nat.mod_pow_succ]
  obtain h | h := Nat.mod_two_eq_zero_or_one (x / 2 ^ j) <;> rw [h] <;> omega

/-! ### PCL (R518, R520, R521) -/

/-- The divider bit of the frequency code `k`, and its period in fX. -/
theorem pcl_period {k : BitVec 2} (h : k ≠ 0) : 4 ^ k.toNat = 2 ^ (2 * k.toNat - 1 + 1) ∧
    4 ^ k.toNat / 2 = 2 ^ (2 * k.toNat - 1) ∧ 2 ^ (2 * k.toNat) = 4 ^ k.toNat := by
  revert k
  decide

theorem pclWanted_on {c : ClockGen} (h : c.clom.getLsbD 3 = true) : c.pclWanted = some (c.clom.extractLsb' 0 2) :=
  if_pos h

theorem pclWanted_off {c : ClockGen} (h : c.clom.getLsbD 3 = false) : c.pclWanted = none :=
  if_neg (by rw [h]; decide)

theorem pclLevel_closed {s : State} (h : s.clk.pcl = none) : s.pclLevel = false := by
  rw [State.pclLevel, h]

theorem pclLevel_open {s : State} {k : BitVec 2} (h : s.clk.pcl = some k) : s.pclLevel = s.clk.pclClock k := by
  rw [State.pclLevel, h]

/-- A gate that lets the wanted clock through stays so. -/
theorem pclAfter_wanted {s : State} {k : BitVec 2} (h : s.clk.pcl = some k) (hw : s.clk.pclWanted = some k) (e : Elapsed) :
    s.pclAfter e = some k := by
  simp only [State.pclAfter, h, hw, if_true]

theorem pclAfter_closed {s : State} {k : BitVec 2} (h : s.clk.pcl = none) (hw : s.clk.pclWanted = some k) (e : Elapsed) :
    s.pclAfter e = if s.pclStarts e 0 k then some k else none := by
  simp only [State.pclAfter, State.pclOpen, h, hw]

/-- After disabling, the gate closes where the clock is low. -/
theorem pclAfter_disabled {s : State} {k : BitVec 2} (h : s.clk.pcl = some k) (hw : s.clk.pclWanted = none) (e : Elapsed) :
    s.pclAfter e = if (s.pclLow e k).isSome then none else some k := by
  simp only [State.pclAfter, State.pclOpen, h, hw, reduceCtorEq, if_false]
  cases s.pclLow e k <;> rfl

section
variable {k : BitVec 2} (hk : k ≠ 0) (s : State) (e : Elapsed)
include hk

theorem pclClock_iff : s.clk.pclClock k = true ↔ 4 ^ k.toNat / 2 ≤ s.clk.div.toNat % 4 ^ k.toNat := by
  obtain ⟨period, half, -⟩ := pcl_period hk
  rw [ClockGen.pclClock, if_neg hk, half, period]
  exact testBit_iff_half _ _

theorem pclStarts_iff : s.pclStarts e 0 k = true ↔
    ∃ i ≤ e.fx, 1 ≤ i ∧ (s.clk.div.toNat + i) % 4 ^ k.toNat = 4 ^ k.toNat / 2 := by
  obtain ⟨period, half, -⟩ := pcl_period hk
  rw [State.pclStarts, if_neg hk, decide_eq_true_iff, divRises_ne_zero_iff, half, period]
  rfl

theorem pclLow_iff : (s.pclLow e k).isSome = true ↔ s.clk.div.toNat % 4 ^ k.toNat < 4 ^ k.toNat / 2 ∨
    ∃ i ≤ e.fx, 1 ≤ i ∧ (s.clk.div.toNat + i) % 4 ^ k.toNat = 0 := by
  have high := pclClock_iff hk s
  rw [exists_multiple_iff (Nat.pow_pos (by decide)), ← Nat.not_le, ← high, State.pclLow, (pcl_period hk).2.2]
  cases s.clk.pclClock k
  · simp
  · simp only [Bool.true_eq_false, if_neg hk, if_false, not_true_eq_false, false_or]
    split
    · next h => simp [h]
    · next h => simp [h]

end

/-! ### Φ (R518, R521) -/

/-- While Φ is not supplied it has no periods. -/
theorem phiCycles_unsupplied {s : State} (h : s.standby ≠ .run ∨ s.phiRuns = false) (e : Elapsed) : s.phiCycles e = 0 := by
  refine if_neg ?_
  rw [State.phiSupplied, Bool.and_eq_true, decide_eq_true_iff]
  rintro ⟨run, runs⟩
  exact h.elim (· run) fun stopped => Bool.false_ne_true (stopped.symm.trans runs)

theorem pclAfter_phi {s : State} {e : Elapsed} (h : s.clk.pcl = none) (hc : s.clk.clom.extractLsb' 0 2 = 0)
    (hp : s.phiCycles e = 0) : s.pclAfter e = none := by
  cases on : s.clk.clom.getLsbD 3
  · simp only [State.pclAfter, State.pclOpen, h, pclWanted_off on]
  · have stands : s.pclStarts e 0 0 = false := by
      rw [State.pclStarts, if_pos rfl, hp]
      rfl
    rw [pclAfter_closed h ((pclWanted_on on).trans (congrArg some hc)), stands]
    rfl

/-- Settles O43: the pins by their circuits, BUZ by its frequency codes, PCL by what opens and closes its gate. -/
theorem outputPins : Obligations.output_pins := by
  unfold Obligations.output_pins
  intro s e k out2 pin
  have pinOf {n : Nat} {v : Nibble} (h : s.pinLevels n = nibMux (s.portMode n) v (s.hostPin n)) : pin n v :=
    fun b hb => pin_bit h hb
  refine ⟨pinOf rfl, pinOf rfl, pinOf rfl, pinOf rfl, pinOf rfl, fun n hn b => pinDrive_modes hn s b, buzLevel_off,
    buzLevel_tap, fun on code => ⟨fun h0 => ?fx, fun h0 => ?fxt⟩, pclLevel_closed, pclLevel_open, fun hk => ?pcl,
    fun unsupplied => ?phi⟩
  case fx => rw [BuzUndivided.level ⟨on, code⟩, h0, if_neg Bool.false_ne_true]
  case fxt =>
    have undivided : BuzUndivided s := ⟨on, code⟩
    obtain ⟨now, watched⟩ := undivided.level_congr (t := s.advanceWatch e) h0 rfl
    refine ⟨watched.trans now.symm, now ▸ fxtHigh_iff s, fun c => ?_⟩
    obtain ⟨-, after⟩ := undivided.level_congr h0 (advanceDividers_wm s c e)
    refine ⟨fun still => ?_, fun hxt hx => ?_⟩
    · rw [after, now, State.fxtHigh, State.fxtHigh, advanceDividers_fxtRem_same still, advanceDividers_chip]
    · rw [after, fxtHigh_iff, advanceDividers_fxtRem hxt hx, advanceDividers_chip]
  case pcl =>
    intro period at' t
    refine ⟨fun opened => pclLevel_open opened ▸ pclClock_iff hk s, fun closed on code => ?opens, fun opened on code => ?stays,
      fun opened off => ?closes⟩
    case opens =>
      exact (pclAfter_closed closed ((pclWanted_on on).trans (congrArg some code)) e).trans
        (if_congr (pclStarts_iff hk s e) rfl rfl)
    case stays => exact pclAfter_wanted opened ((pclWanted_on on).trans (congrArg some code)) e
    case closes =>
      exact (pclAfter_disabled opened (pclWanted_off off) e).trans (if_congr (pclLow_iff hk s e) rfl rfl)
  case phi =>
    have idle := phiCycles_unsupplied unsupplied e
    exact ⟨if_pos idle, fun closed code => pclAfter_phi closed code idle⟩

end Sys2Proof.Machine
end
